-- ==== Sys2Proof/Word.lean ====
section
/-! DEFINITION. The words of the block and the plain records it keeps: command and frame words, tick
counts, the five operating modes, one Mode State record and the four pulse categories. -/

namespace Sys2Proof

/-- A 32-bit unit: a command word (R82) or a protocol word (R64). Bit 0 is the least significant (R8). -/
abbrev Word := BitVec 32

/-- A tick count on the stream, 16 bits unsigned (R7, R190). -/
abbrev Tick := BitVec 16

/-- The five operating modes (R21, R12). Their ordinals are `Machine.modeOrdinal`. -/
inductive Mode where
  | auto
  | cool
  | dry
  | fan
  | heat
  deriving DecidableEq, Repr

/-- One Mode State record: the eight fields of R22, each at the width of R20. An on/off field is `true`
for on, stored 1. -/
@[ext]
structure ModeState where
  /-- R23. -/
  fan : BitVec 2
  /-- R24. -/
  louver : BitVec 4
  /-- R25, unsigned. -/
  temp : BitVec 8
  /-- R26. -/
  turbo : Bool
  /-- R27. -/
  display : Bool
  /-- R28. -/
  health : Bool
  /-- R29. -/
  xfan : Bool
  /-- R30. -/
  dispmode : BitVec 2
  deriving DecidableEq, Repr, Inhabited

/-- The four pulse categories of the Timing Table (R40). -/
inductive Category where
  /-- Data bit 0. -/
  | z
  /-- Data bit 1. -/
  | o
  /-- Section gap. -/
  | g
  /-- Header. -/
  | h
  deriving DecidableEq, Repr

/-- One Timing Table entry: emitter on for `mark` ticks, then off for `space` ticks (R40, R181). -/
structure TickPair where
  mark : Tick
  space : Tick
  deriving DecidableEq, Repr

end Sys2Proof
end

