-- ==== Sys2Proof/Syntax.lean ====
section
/-! DEFINITION. The command words as syntax: one constructor for each row of spec/opcode_table.json. -/

namespace Sys2Proof

/-- A command (R88). The opcode selects the constructor, and every other bit of the word is a field of it:
`rsv` fields are the bits the format marks "reserved, must be zero" (R83 to R85). They are kept because
each command's own rule says what it does when one of them is set (cause 2): log entry 10. -/
inductive Instr where
  /-- `op = 0x0`, format Z, R114. -/
  | nop (rsv : BitVec 28)
  /-- `op = 0x1`, format Z, R111. -/
  | init (rsv : BitVec 28)
  /-- `op = 0x2`, format M, R112: bit 27 reserved, `msel` bits 26..24, bits 23..20 reserved, `ms` bits 19..0. -/
  | seed (rsvHi : BitVec 1) (msel : BitVec 3) (rsvLo : BitVec 4) (ms : BitVec 20)
  /-- `op = 0x3`, format S, R121. -/
  | setPower (rsv : BitVec 20) (imm : BitVec 8)
  /-- `op = 0x4`, format S, R122. -/
  | setMode (rsv : BitVec 20) (imm : BitVec 8)
  /-- `op = 0x5`, format S, R124. -/
  | setFan (rsv : BitVec 20) (imm : BitVec 8)
  /-- `op = 0x6`, format S, R125. -/
  | setLouver (rsv : BitVec 20) (imm : BitVec 8)
  /-- `op = 0x7`, format S, R126. -/
  | setTemp (rsv : BitVec 20) (imm : BitVec 8)
  /-- `op = 0x8`, format S, R127. -/
  | setTurbo (rsv : BitVec 20) (imm : BitVec 8)
  /-- `op = 0x9`, format S, R128. -/
  | setDisplay (rsv : BitVec 20) (imm : BitVec 8)
  /-- `op = 0xA`, format S, R130. -/
  | setHealth (rsv : BitVec 20) (imm : BitVec 8)
  /-- `op = 0xB`, format S, R131. -/
  | setXfan (rsv : BitVec 20) (imm : BitVec 8)
  /-- `op = 0xC`, format S, R132. -/
  | setDispmode (rsv : BitVec 20) (imm : BitVec 8)
  /-- `op = 0xD`, format Z, R188. -/
  | emit (rsv : BitVec 28)
  /-- `op = 0xE`, reserved opcode, R89, R210; `rest` is every other bit. -/
  | reservedE (rest : BitVec 28)
  /-- `op = 0xF`, reserved opcode, R89, R210; `rest` is every other bit. -/
  | reservedF (rest : BitVec 28)
  deriving DecidableEq, Repr

end Sys2Proof
end

