-- ==== Sys2Proof/WellFormed.lean ====
section
/-! DEFINITION. Which commands are well-formed: a defined opcode with every reserved bit zero (R88, R90). -/

namespace Sys2Proof

/-- R88, R90, R93 (4): the opcode is defined and no reserved bit is set. An operand out of range
(R93 (3)) is no matter of form: `SET_MODE 5` is well-formed and faults when executed (R94). -/
def Instr.wellFormed : Instr → Bool
  | .nop rsv => rsv == 0
  | .init rsv => rsv == 0
  | .seed rsvHi _ rsvLo _ => rsvHi == 0 && rsvLo == 0
  | .setPower rsv _ => rsv == 0
  | .setMode rsv _ => rsv == 0
  | .setFan rsv _ => rsv == 0
  | .setLouver rsv _ => rsv == 0
  | .setTemp rsv _ => rsv == 0
  | .setTurbo rsv _ => rsv == 0
  | .setDisplay rsv _ => rsv == 0
  | .setHealth rsv _ => rsv == 0
  | .setXfan rsv _ => rsv == 0
  | .setDispmode rsv _ => rsv == 0
  | .emit rsv => rsv == 0
  | .reservedE _ => false
  | .reservedF _ => false

end Sys2Proof
end

