-- ==== Sys2Proof/Decode.lean ====
section
/-! DEFINITION. Reading a command from a word and writing it back, from the formats of 30_encoding.md. -/

namespace Sys2Proof

/-- Why a bit string is no command word. -/
inductive DecodeError where
  /-- It is not one 32-bit word: there is one length and no prefix (R82, R92). -/
  | notOneWord
  deriving DecidableEq, Repr

/-- The opcode, bits 31..28 in every format (R82). -/
def opcodeField (w : Word) : BitVec 4 := w.extractLsb' 28 4

/-- Bits 27..0: reserved in format Z (R83), free in the reserved opcodes (R89). -/
def lowField (w : Word) : BitVec 28 := w.extractLsb' 0 28

/-- Bits 27..8: reserved in format S (R84). -/
def reservedS (w : Word) : BitVec 20 := w.extractLsb' 8 20

/-- `imm`, bits 7..0 of format S (R84). -/
def immField (w : Word) : BitVec 8 := w.extractLsb' 0 8

/-- The decoder, total on 32-bit words (R88, R93); it depends on no state (R92). -/
def decodeWord (w : Word) : Instr :=
  match (opcodeField w).toNat with
  | 0x0 => .nop (lowField w)
  | 0x1 => .init (lowField w)
  | 0x2 => .seed (w.extractLsb' 27 1) (w.extractLsb' 24 3) (w.extractLsb' 20 4) (w.extractLsb' 0 20)
  | 0x3 => .setPower (reservedS w) (immField w)
  | 0x4 => .setMode (reservedS w) (immField w)
  | 0x5 => .setFan (reservedS w) (immField w)
  | 0x6 => .setLouver (reservedS w) (immField w)
  | 0x7 => .setTemp (reservedS w) (immField w)
  | 0x8 => .setTurbo (reservedS w) (immField w)
  | 0x9 => .setDisplay (reservedS w) (immField w)
  | 0xA => .setHealth (reservedS w) (immField w)
  | 0xB => .setXfan (reservedS w) (immField w)
  | 0xC => .setDispmode (reservedS w) (immField w)
  | 0xD => .emit (lowField w)
  | 0xE => .reservedE (lowField w)
  | _ => .reservedF (lowField w)

/-- The decoder on `nbits` offered bits of value `w`, the bits above them zero: one 32-bit word is a
command, anything longer is rejected by name. Log entry 13. -/
def decode (nbits w : Nat) : Except DecodeError Instr :=
  if nbits ≤ 32 ∧ w < 2 ^ 32 then .ok (decodeWord (BitVec.ofNat 32 w)) else .error .notOneWord

/-- What the decoder reads from an instruction of `nbits` bits of value `w`, numbered as
spec/opcode_table.json numbers them. -/
def decodeTableWord (nbits w : Nat) : Option Instr := (decode nbits w).toOption

/-- The word of a command: the formats Z, S and M of R83 to R85 with the opcodes of R88. -/
def encode : Instr → Word
  | .nop rsv => 0x0#4 ++ rsv
  | .init rsv => 0x1#4 ++ rsv
  | .seed rsvHi msel rsvLo ms => 0x2#4 ++ rsvHi ++ msel ++ rsvLo ++ ms
  | .setPower rsv imm => 0x3#4 ++ rsv ++ imm
  | .setMode rsv imm => 0x4#4 ++ rsv ++ imm
  | .setFan rsv imm => 0x5#4 ++ rsv ++ imm
  | .setLouver rsv imm => 0x6#4 ++ rsv ++ imm
  | .setTemp rsv imm => 0x7#4 ++ rsv ++ imm
  | .setTurbo rsv imm => 0x8#4 ++ rsv ++ imm
  | .setDisplay rsv imm => 0x9#4 ++ rsv ++ imm
  | .setHealth rsv imm => 0xA#4 ++ rsv ++ imm
  | .setXfan rsv imm => 0xB#4 ++ rsv ++ imm
  | .setDispmode rsv imm => 0xC#4 ++ rsv ++ imm
  | .emit rsv => 0xD#4 ++ rsv
  | .reservedE rest => 0xE#4 ++ rest
  | .reservedF rest => 0xF#4 ++ rest

/-- A row of the opcode map: `w` is a well-formed instance when `w and mask = match` (R88). -/
structure OpcodeRow where
  pattern : Word
  mask : Word
  deriving DecidableEq, Repr

/-- The fourteen defined rows of R88 in its order, `match` and `mask` as printed there. -/
def opcodeRows : List OpcodeRow :=
  [⟨0x00000000#32, 0xFFFFFFFF#32⟩, ⟨0x10000000#32, 0xFFFFFFFF#32⟩, ⟨0x20000000#32, 0xF8F00000#32⟩,
   ⟨0x30000000#32, 0xFFFFFF00#32⟩, ⟨0x40000000#32, 0xFFFFFF00#32⟩, ⟨0x50000000#32, 0xFFFFFF00#32⟩,
   ⟨0x60000000#32, 0xFFFFFF00#32⟩, ⟨0x70000000#32, 0xFFFFFF00#32⟩, ⟨0x80000000#32, 0xFFFFFF00#32⟩,
   ⟨0x90000000#32, 0xFFFFFF00#32⟩, ⟨0xA0000000#32, 0xFFFFFF00#32⟩, ⟨0xB0000000#32, 0xFFFFFF00#32⟩,
   ⟨0xC0000000#32, 0xFFFFFF00#32⟩, ⟨0xD0000000#32, 0xFFFFFFFF#32⟩]

/-- Some row of R88 matches the word. -/
def matchesRow (w : Word) : Bool := opcodeRows.any fun r => w &&& r.mask == r.pattern

end Sys2Proof
end

