-- ==== Sys2Proof/Config.lean ====
section
/-! DEFINITION. What the spec leaves open, as constants without a body: nothing in Lean can evaluate
them. The parameters the spec fixes (R7, R45) are in Machine/Tables.lean. -/

namespace Sys2Proof.Config

/-- `TICK_PERIOD` (R7, R182, D17): OPEN, and no rule uses it; the model assigns it no value and nothing
reads it. Log entry 7. -/
opaque tickPeriod : Nat

/-- FREE VALUE. What the outputs show as the active record while MODE holds 5, 6 or 7. No run from reset
reaches such a state (R34, R47); before the first reset every output is unspecified (R231). Log entry 4. -/
opaque absentRecord : BitVec 3 → ModeState

/-- FREE VALUE. What `tim_data` shows while BUSY is 1 and IDX is above 139. No run from reset reaches such a
state (R37, R47, R231). Log entry 5. -/
opaque absentItem : BitVec 8 → Tick

end Sys2Proof.Config
end

