-- ==== Sys2Proof/Machine/Tables.lean ====
section
/-! DEFINITION. The constants the spec fixes (R7, R31, R40): the factory defaults, the Timing Table, the
frame constants, and the default of the parameter SWING_SET. None of them ever changes (R45). -/

namespace Sys2Proof.Machine

/-- `DEFAULT[m]`, the factory default record of each mode (R31). -/
def defaultRecord : Mode → ModeState
  | .auto => ⟨0, 0, 25, false, true, true, false, 0⟩
  | .cool => ⟨0, 0, 25, false, true, true, false, 0⟩
  | .dry  => ⟨1, 0, 25, false, true, true, false, 0⟩
  | .fan  => ⟨0, 0, 25, false, true, true, false, 0⟩
  | .heat => ⟨0, 0, 28, false, true, true, false, 0⟩

/-- `TT`, the Timing Table ROM (R40, R62, R183). -/
def timingTable : Category → TickPair
  | .z => ⟨632, 527⟩
  | .o => ⟨632, 1606⟩
  | .g => ⟨632, 19816⟩
  | .h => ⟨8948, 4422⟩

/-- `B0_CONST`, the constant flag bits of word 0 before reversal (R7, R143). -/
def b0Const : Word := 0x50000000#32

/-- What the power-off branch toggles into word 0 (R153). -/
def powerOffToggle : Word := 0x80000000#32

/-- `TEMP_BIAS` (R7, R148). -/
def tempBias : Nat := 16

/-- `CHK_BIAS` (R7, R156). -/
def chkBias : Nat := 2

/-- The default of the parameter `SWING_SET`: the louver codes that set frame bit 6 (R7, R147). PRESUMED:
the spec took the codes from general knowledge (D11, G1). Log entry 6. -/
def swingSet : List (BitVec 4) := [1, 7, 9, 11]

/-- The position of the last item of a sequence (R37, R192). -/
def lastItem : Nat := 139

/-- The nominal louver codes (R24, R32). -/
def nominalLouver : List (BitVec 4) := [0, 1, 2, 3, 4, 5, 6, 7, 9, 11]

end Sys2Proof.Machine
end

