-- ==== Sys2Proof/Machine/State.lean ====
section
/-! DEFINITION. The state of the block (R20), the host's inputs still to come, the reasons a step can
stop, and the state after reset (R44). There is no memory (R60) and no program counter (R42). -/

namespace Sys2Proof.Machine

/-- The Mode State file `MS`: exactly five records, `MS[0]` to `MS[4]` (R21). `ModeFile.get` and
`ModeFile.set` index it. -/
@[ext]
structure ModeFile where
  ms0 : ModeState
  ms1 : ModeState
  ms2 : ModeState
  ms3 : ModeState
  ms4 : ModeState
  deriving DecidableEq, Repr

/-- What the host drives on the input ports in one clock cycle (R80). `cmd` means something only while
`cmdValid` is true. -/
structure PortIn where
  rst : Bool
  cmdValid : Bool
  cmd : Word
  timReady : Bool
  deriving DecidableEq, Repr

/-- The cause of a fault (R211). Code 0, no fault, is the absence of a cause. -/
inductive Cause where
  /-- Code 1, `ILLEGAL_OPCODE`. -/
  | illegalOpcode
  /-- Code 2, `RESERVED_BITS`. -/
  | reservedBits
  /-- Code 3, `MODE_RANGE`. -/
  | modeRange
  deriving DecidableEq, Repr

/-- The state: the block's own (R20), and the host's inputs for the coming clock edges. -/
@[ext]
structure State where
  /-- The five Mode State records (R21). -/
  ms : ModeFile
  /-- `POWER` (R33). -/
  power : Bool
  /-- `MODE` (R34). -/
  mode : BitVec 3
  /-- `BUSY` (R36). -/
  busy : Bool
  /-- `IDX` (R37). -/
  idx : BitVec 8
  /-- `ERR` (R38). -/
  err : Bool
  /-- `ERRC` (R39). -/
  errc : BitVec 2
  /-- The model's own field: what the host drives at the coming clock edges, the next one first.
  No state of the block (R45). DESIGN CHOICE, log entry 1. -/
  inputs : List PortIn
  deriving DecidableEq, Repr

/-- Why a step stops with a fault of the model's own. A fault of the BLOCK (R213) is none of these: it is a
next state with ERR set. Both happen only in states no run from reset reaches (R47). -/
inductive Fault where
  /-- Raised by the seven per-mode setters while MODE holds 5, 6 or 7: no record exists to write (R61, R231).
  Safe: the spec gives no meaning there, and MODE never holds such a value after reset (R34). Log entry 4. -/
  | noModeState (mode : BitVec 3)
  /-- Raised by a transfer while IDX is above 139 (R191 and R192 give no effect, R231). Safe: IDX never holds
  such a value after reset (R37). Log entry 5. -/
  | streamIndexOutOfRange (idx : BitVec 8)
  deriving DecidableEq, Repr

/-- Why a step is refused. -/
inductive Refusal where
  /-- Raised by an arm of `exec` whose instruction has no meaning yet; no arm is left that does. Safe. -/
  | notModelled (mnemonic : String)
  deriving DecidableEq, Repr

/-- The block right after reset (R44, R230), with no input listed (log entry 2). -/
def State.reset : State where
  ms := ⟨defaultRecord .auto, defaultRecord .cool, defaultRecord .dry, defaultRecord .fan, defaultRecord .heat⟩
  power := false
  mode := 0
  busy := false
  idx := 0
  err := false
  errc := 0
  inputs := []

end Sys2Proof.Machine
end

