-- ==== Sys2Proof/Machine/Ops.lean ====
section
/-! DEFINITION. The named operations on registers and on the Mode State file, taking a fault (R213), and
the reset of the block (R230). -/

namespace Sys2Proof.Machine

/-- What a meaning or a clock edge answers. -/
abbrev Result := Host.Outcome State Fault Refusal

/-! ### Mode ordinals and the Mode State file -/

/-- The mode ordinal (R21). -/
def modeOrdinal : Mode → BitVec 3
  | .auto => 0
  | .cool => 1
  | .dry  => 2
  | .fan  => 3
  | .heat => 4

/-- The mode an index selects; 5, 6 and 7 select nothing (R61). -/
def modeOfOrdinal (m : BitVec 3) : Option Mode :=
  match m.toNat with
  | 0 => some .auto
  | 1 => some .cool
  | 2 => some .dry
  | 3 => some .fan
  | 4 => some .heat
  | _ => none

/-- `MS[m]` (R10). -/
def ModeFile.get (f : ModeFile) : Mode → ModeState
  | .auto => f.ms0
  | .cool => f.ms1
  | .dry  => f.ms2
  | .fan  => f.ms3
  | .heat => f.ms4

/-- `MS[m] <- r`, the other four records kept (R21). -/
def ModeFile.set (f : ModeFile) (m : Mode) (r : ModeState) : ModeFile :=
  match m with
  | .auto => { f with ms0 := r }
  | .cool => { f with ms1 := r }
  | .dry  => { f with ms2 := r }
  | .fan  => { f with ms3 := r }
  | .heat => { f with ms4 := r }

/-- The same change made to each of the five records at once (R68, R69). -/
def ModeFile.mapAll (f : ModeFile) (g : ModeState → ModeState) : ModeFile :=
  ⟨g f.ms0, g f.ms1, g f.ms2, g f.ms3, g f.ms4⟩

/-- The file of the factory defaults (R31, R111). -/
def defaultFile : ModeFile :=
  ⟨defaultRecord .auto, defaultRecord .cool, defaultRecord .dry, defaultRecord .fan, defaultRecord .heat⟩

/-! ### Register writes -/

/-- Write the Mode State file. -/
def State.withMs (s : State) (f : ModeFile) : State := { s with ms := f }

/-- `POWER <- v` (R33). -/
def State.withPower (s : State) (v : Bool) : State := { s with power := v }

/-- `MODE <- v` (R34). -/
def State.withMode (s : State) (v : BitVec 3) : State := { s with mode := v }

/-- `BUSY <- b`, `IDX <- i` (R36, R37). -/
def State.withStream (s : State) (b : Bool) (i : BitVec 8) : State := { s with busy := b, idx := i }

/-- `ERR <- e`, `ERRC <- c` (R38, R39). -/
def State.withErr (s : State) (e : Bool) (c : BitVec 2) : State := { s with err := e, errc := c }

/-- The host's remaining inputs. -/
def State.withInputs (s : State) (l : List PortIn) : State := { s with inputs := l }

/-- Change the active record `MS[MODE]` and no other (R35, R123, R134 b). MODE of 5..7 has no record: log entry 4. -/
def writeActive (g : ModeState → ModeState) (s : State) : Result :=
  match modeOfOrdinal s.mode with
  | some m => .next (s.withMs (s.ms.set m (g (s.ms.get m))))
  | none => .fault (.noModeState s.mode)

/-- The active record `A = MS[MODE]` as the outputs read it (R10, R43). -/
def State.activeRecord (s : State) : ModeState :=
  match modeOfOrdinal s.mode with
  | some m => s.ms.get m
  | none => Config.absentRecord s.mode

/-! ### Taking a fault, and reset -/

/-- The code of a cause in ERRC (R211). -/
def causeCode : Cause → BitVec 2
  | .illegalOpcode => 1
  | .reservedBits => 2
  | .modeRange => 3

/-- `raise Fault(cause)` (R213): ERR is set, ERRC takes the cause of the first fault only, and nothing else
is written. There is no handler and no return (R216). -/
def takeFault (c : Cause) (s : State) : State :=
  s.withErr true (if s.err then s.errc else causeCode c)

/-- A command whose reserved bits must be zero: cause 2 if one is set, else the command's own effect
(R90, R210). -/
def unlessReserved (bitsClear : Bool) (s : State) (effect : Result) : Result :=
  if bitsClear then effect else .next (takeFault .reservedBits s)

/-- A clock edge with `rst = 1` (R230): every register takes its reset value. The host's coming inputs are
no register and stay. -/
def resetBlock (s : State) : State := State.reset.withInputs s.inputs

end Sys2Proof.Machine
end

