-- ==== Sys2Proof/Machine/Operands.lean ====
section
/-! DEFINITION. How each operand is taken from its field (R86, R87): unsigned, used as it stands, cut to the
width of the state it is written to, the bits above ignored without a fault. -/

namespace Sys2Proof.Machine

/-- `imm[0]`, the operand of the on/off setters and of SET_POWER (R87). -/
def immBit (imm : BitVec 8) : Bool := imm.getLsbD 0

/-- `imm[1:0]`, the operand of SET_FAN and SET_DISPMODE (R87). -/
def immTwo (imm : BitVec 8) : BitVec 2 := imm.extractLsb' 0 2

/-- `imm[3:0]`, the operand of SET_LOUVER (R87). -/
def immFour (imm : BitVec 8) : BitVec 4 := imm.extractLsb' 0 4

/-- `imm[7:0]`, the operand of SET_TEMP (R87). -/
def immEight (imm : BitVec 8) : BitVec 8 := imm

/-- The operand of SET_MODE: the whole `imm` is checked, and a value above 4 selects no Mode State
(R87, R212). -/
def immMode (imm : BitVec 8) : Option (BitVec 3) :=
  if imm.toNat > 4 then none else some (imm.extractLsb' 0 3)

/-- The Mode State in a packed 20-bit value (R86); total. -/
def unpack (v : BitVec 20) : ModeState where
  fan := v.extractLsb' 0 2
  louver := v.extractLsb' 2 4
  temp := v.extractLsb' 6 8
  turbo := v.getLsbD 14
  display := v.getLsbD 15
  health := v.getLsbD 16
  xfan := v.getLsbD 17
  dispmode := v.extractLsb' 18 2

/-- A one-bit value as a number of `n` bits. -/
def bitValue (n : Nat) (b : Bool) : BitVec n := if b then 1#n else 0#n

/-- `pack`, the inverse of `unpack` (R86). -/
def pack (r : ModeState) : BitVec 20 :=
  r.fan.setWidth 20 ||| (r.louver.setWidth 20 <<< 2) ||| (r.temp.setWidth 20 <<< 6)
    ||| (bitValue 20 r.turbo <<< 14) ||| (bitValue 20 r.display <<< 15) ||| (bitValue 20 r.health <<< 16)
    ||| (bitValue 20 r.xfan <<< 17) ||| (r.dispmode.setWidth 20 <<< 18)

end Sys2Proof.Machine
end

