-- ==== Sys2Proof/Machine/Flags.lean ====
section
/-! DEFINITION. The handshake and status flags: what `cmd_ready` and `tim_valid` say, and how BUSY and IDX move. -/

namespace Sys2Proof.Machine

/-- `cmd_ready` (R81). -/
def cmdReady (s : State) (rst : Bool) : Bool := !s.busy && !rst

/-- `tim_valid` (R189). -/
def timValid (s : State) (rst : Bool) : Bool := s.busy && !rst

/-- A command is accepted at this edge (R11, R81). -/
def commandAccepted (p : PortIn) (s : State) : Bool := !p.rst && p.cmdValid && cmdReady s p.rst

/-- A stream item is transferred at this edge (R11, R191). -/
def itemTransferred (p : PortIn) (s : State) : Bool := !p.rst && timValid s p.rst && p.timReady

/-- The effect of EMIT on the flags: `BUSY <- 1`, `IDX <- 0` (R188). -/
def startStream (s : State) : State := s.withStream true 0

/-- A transfer (R191, R192): IDX advances, and the last one returns BUSY and IDX to 0. The rules give an
index above 139 no effect: log entry 5. -/
def transfer (s : State) : Result :=
  if s.idx.toNat < lastItem then .next (s.withStream true (s.idx + 1))
  else if s.idx.toNat = lastItem then .next (s.withStream false 0)
  else .fault (.streamIndexOutOfRange s.idx)

end Sys2Proof.Machine
end

