-- ==== Sys2Proof/Machine/Construct.lean ====
section
/-! DEFINITION. The construction commands NOP, INIT and SEED (40_construct.md). -/

namespace Sys2Proof.Machine

/-- NOP (R114): nothing is written. -/
def execNop (rsv : BitVec 28) (s : State) : Result :=
  unlessReserved (rsv == 0) s (.next s)

/-- INIT (R111): every record to its default, POWER and MODE to 0; ERR and ERRC are kept (R216). -/
def execInit (rsv : BitVec 28) (s : State) : Result :=
  unlessReserved (rsv == 0) s (.next (((s.withMs defaultFile).withPower false).withMode 0))

/-- SEED (R112): the whole record `MS[msel]`, verbatim, with no broadcast of `health`; cause 3 if `msel`
selects no record. -/
def execSeed (rsvHi : BitVec 1) (msel : BitVec 3) (rsvLo : BitVec 4) (ms : BitVec 20) (s : State) : Result :=
  unlessReserved (rsvHi == 0 && rsvLo == 0) s <|
    match modeOfOrdinal msel with
    | some m => .next (s.withMs (s.ms.set m (unpack ms)))
    | none => .next (takeFault .modeRange s)

end Sys2Proof.Machine
end

