-- ==== Sys2Proof/Machine/Emit.lean ====
section
/-! DEFINITION. The command EMIT (R188), which starts the delivery of `Timings`. -/

namespace Sys2Proof.Machine

/-- EMIT (R188): BUSY set, IDX 0, no Controller state written. -/
def execEmit (rsv : BitVec 28) (s : State) : Result :=
  unlessReserved (rsv == 0) s (.next (startStream s))

end Sys2Proof.Machine
end

