-- ==== Sys2Proof/Machine/Reserved.lean ====
section
/-! DEFINITION. The two reserved opcodes (R89, R210): every word that has one faults with cause 1. -/

namespace Sys2Proof.Machine

/-- Opcode `0xE` (R210): cause 1 whatever the other bits hold. -/
def execReservedE (_rest : BitVec 28) (s : State) : Result := .next (takeFault .illegalOpcode s)

/-- Opcode `0xF` (R210): cause 1 whatever the other bits hold. -/
def execReservedF (_rest : BitVec 28) (s : State) : Result := .next (takeFault .illegalOpcode s)

end Sys2Proof.Machine
end

