-- ==== Sys2Proof/Machine/Setters.lean ====
section
/-! DEFINITION. The ten setter commands (41_setters.md). Each writes exactly what its rule names (R120),
from which the laws of R134 follow. -/

namespace Sys2Proof.Machine

/-- SET_POWER (R121). -/
def execSetPower (rsv : BitVec 20) (imm : BitVec 8) (s : State) : Result :=
  unlessReserved (rsv == 0) s (.next (s.withPower (immBit imm)))

/-- SET_MODE (R122): cause 3, and MODE kept, if the whole `imm` is above 4 (R212). No record is touched, nor
POWER (R134 c). -/
def execSetMode (rsv : BitVec 20) (imm : BitVec 8) (s : State) : Result :=
  unlessReserved (rsv == 0) s <|
    match immMode imm with
    | some v => .next (s.withMode v)
    | none => .next (takeFault .modeRange s)

/-- SET_FAN (R124). -/
def execSetFan (rsv : BitVec 20) (imm : BitVec 8) (s : State) : Result :=
  unlessReserved (rsv == 0) s (writeActive (fun r => { r with fan := immTwo imm }) s)

/-- SET_LOUVER (R125): all sixteen codes verbatim. -/
def execSetLouver (rsv : BitVec 20) (imm : BitVec 8) (s : State) : Result :=
  unlessReserved (rsv == 0) s (writeActive (fun r => { r with louver := immFour imm }) s)

/-- SET_TEMP (R126): every value verbatim. -/
def execSetTemp (rsv : BitVec 20) (imm : BitVec 8) (s : State) : Result :=
  unlessReserved (rsv == 0) s (writeActive (fun r => { r with temp := immEight imm }) s)

/-- SET_TURBO (R127). -/
def execSetTurbo (rsv : BitVec 20) (imm : BitVec 8) (s : State) : Result :=
  unlessReserved (rsv == 0) s (writeActive (fun r => { r with turbo := immBit imm }) s)

/-- SET_DISPLAY (R128). -/
def execSetDisplay (rsv : BitVec 20) (imm : BitVec 8) (s : State) : Result :=
  unlessReserved (rsv == 0) s (writeActive (fun r => { r with display := immBit imm }) s)

/-- SET_HEALTH (R129, R130, R134 a): the broadcast to all five records; MODE is not read. -/
def execSetHealth (rsv : BitVec 20) (imm : BitVec 8) (s : State) : Result :=
  unlessReserved (rsv == 0) s (.next (s.withMs (s.ms.mapAll fun r => { r with health := immBit imm })))

/-- SET_XFAN (R131). -/
def execSetXfan (rsv : BitVec 20) (imm : BitVec 8) (s : State) : Result :=
  unlessReserved (rsv == 0) s (writeActive (fun r => { r with xfan := immBit imm }) s)

/-- SET_DISPMODE (R132). -/
def execSetDispmode (rsv : BitVec 20) (imm : BitVec 8) (s : State) : Result :=
  unlessReserved (rsv == 0) s (writeActive (fun r => { r with dispmode := immTwo imm }) s)

end Sys2Proof.Machine
end

