-- ==== Sys2Proof/Machine/Dispatch.lean ====
section
/-! DEFINITION. The effect of one accepted command, one arm per constructor of Instr. -/

namespace Sys2Proof.Machine

def exec (i : Instr) (s : State) : Host.Outcome State Fault Refusal :=
  match i with
  | .nop rsv => Sys2Proof.Machine.execNop rsv s
  | .init rsv => Sys2Proof.Machine.execInit rsv s
  | .seed rsvHi msel rsvLo ms => Sys2Proof.Machine.execSeed rsvHi msel rsvLo ms s
  | .setPower rsv imm => Sys2Proof.Machine.execSetPower rsv imm s
  | .setMode rsv imm => Sys2Proof.Machine.execSetMode rsv imm s
  | .setFan rsv imm => Sys2Proof.Machine.execSetFan rsv imm s
  | .setLouver rsv imm => Sys2Proof.Machine.execSetLouver rsv imm s
  | .setTemp rsv imm => Sys2Proof.Machine.execSetTemp rsv imm s
  | .setTurbo rsv imm => Sys2Proof.Machine.execSetTurbo rsv imm s
  | .setDisplay rsv imm => Sys2Proof.Machine.execSetDisplay rsv imm s
  | .setHealth rsv imm => Sys2Proof.Machine.execSetHealth rsv imm s
  | .setXfan rsv imm => Sys2Proof.Machine.execSetXfan rsv imm s
  | .setDispmode rsv imm => Sys2Proof.Machine.execSetDispmode rsv imm s
  | .emit rsv => Sys2Proof.Machine.execEmit rsv s
  | .reservedE rest => Sys2Proof.Machine.execReservedE rest s
  | .reservedF rest => Sys2Proof.Machine.execReservedF rest s

end Sys2Proof.Machine
end

