-- ==== Sys2Proof/Machine/Edge.lean ====
section
/-! DEFINITION. One rising clock edge (R219): exactly one of a reset, a command, a transfer, nothing. -/

namespace Sys2Proof.Machine

/-- The inputs of a cycle in which the host does nothing. The model drives these once the listed inputs are
used up (log entry 1). -/
def quietInput : PortIn := ⟨false, false, 0, false⟩

/-- What the host drives at the coming edge. -/
def State.currentInput (s : State) : PortIn := s.inputs.headD quietInput

/-- The state with the coming edge's inputs taken off the list. -/
def State.dropInput (s : State) : State := s.withInputs s.inputs.tail

/-- One rising edge with inputs `p` (R219): reset wins (a); else an accepted command executes (R81, R240);
else an offered item is transferred (R191); else nothing changes (c). -/
def clockEdge (p : PortIn) (s : State) : Result :=
  if p.rst then .next (resetBlock s)
  else if commandAccepted p s then exec (decodeWord p.cmd) s
  else if itemTransferred p s then transfer s
  else .next s

/-- The inputs of a cycle in which the host offers the command word `w`. -/
def offerCommand (w : Word) : PortIn := ⟨false, true, w, false⟩

/-- The host offers `w` at the coming edge and the stream is idle, so that the word is accepted there
(R81); BUSY = 0 goes with IDX = 0 (R37). Everything else is kept. Log entry 2. -/
def State.offerNext (s : State) (w : Word) : State :=
  (s.withStream false 0).withInputs (offerCommand w :: s.inputs)

end Sys2Proof.Machine
end

