-- ==== Sys2Proof/Machine/Step.lean ====
section
/-! DEFINITION. One step of the machine: one rising edge of `clk` (R219, R242). -/

namespace Sys2Proof.Machine

/-- One rising clock edge with the inputs the host drives at it. -/
def step (s : State) : Host.Outcome State Fault Refusal := clockEdge s.currentInput s.dropInput

/-- `s` with the command word of `nbits` bits and value `w` offered at the coming edge, so that the very
next step accepts and executes it. The block fetches nothing (R42): log entry 2. -/
def State.withFetchWord (s : State) (nbits w : Nat) : State :=
  s.offerNext (BitVec.ofNat 32 (w % 2 ^ nbits))

end Sys2Proof.Machine
end

