-- ==== Sys2Proof/Machine/Assembler.lean ====
section
/-! DEFINITION. The textual form of commands (R94) and the pseudo-instructions (R95). No part of the block:
a way to write its command words down. Log entry 14 says what of the text the spec leaves open. -/

namespace Sys2Proof.Machine

/-- The ten setter mnemonics `SET_x` (R94). -/
inductive Setter where
  | power
  | mode
  | fan
  | louver
  | temp
  | turbo
  | display
  | health
  | xfan
  | dispmode
  deriving DecidableEq, Repr

/-- One command as the assembler reads it: a mnemonic and its operands as plain numbers (R94). -/
inductive AsmLine where
  | nop
  | init
  | emit
  | set (op : Setter) (v : Nat)
  | seed (m fan louver temp turbo display health xfan dispmode : Nat)
  deriving DecidableEq, Repr

/-- The setter command of an operand that fits `imm` (R84, R88). -/
def setterInstr (op : Setter) (imm : BitVec 8) : Instr :=
  match op with
  | .power => .setPower 0 imm
  | .mode => .setMode 0 imm
  | .fan => .setFan 0 imm
  | .louver => .setLouver 0 imm
  | .temp => .setTemp 0 imm
  | .turbo => .setTurbo 0 imm
  | .display => .setDisplay 0 imm
  | .health => .setHealth 0 imm
  | .xfan => .setXfan 0 imm
  | .dispmode => .setDispmode 0 imm

/-- The command of a line; an operand that does not fit its encoding field is rejected, an index above 4 that
fits is not (R94). -/
def assemble : AsmLine → Option Instr
  | .nop => some (.nop 0)
  | .init => some (.init 0)
  | .emit => some (.emit 0)
  | .set op v => if v ≤ 255 then some (setterInstr op (BitVec.ofNat 8 v)) else none
  | .seed m fan louver temp turbo display health xfan dispmode =>
    if m ≤ 7 ∧ fan ≤ 3 ∧ louver ≤ 15 ∧ temp ≤ 255 ∧ turbo ≤ 1 ∧ display ≤ 1 ∧ health ≤ 1 ∧ xfan ≤ 1 ∧ dispmode ≤ 3 then
      some (.seed 0 (BitVec.ofNat 3 m) 0 (pack
        ⟨BitVec.ofNat 2 fan, BitVec.ofNat 4 louver, BitVec.ofNat 8 temp, turbo == 1, display == 1, health == 1,
          xfan == 1, BitVec.ofNat 2 dispmode⟩))
    else none

/-! ### Pseudo-instructions (R95) -/

/-- `POWER_ON`. -/
def powerOn : List AsmLine := [.set .power 1]

/-- `POWER_OFF`. -/
def powerOff : List AsmLine := [.set .power 0]

/-- `SEED m,` followed by the eight values of a record, in the order of R94. -/
def seedLine (m : Mode) (r : ModeState) : AsmLine :=
  .seed (modeOrdinal m).toNat r.fan.toNat r.louver.toNat r.temp.toNat r.turbo.toNat r.display.toNat r.health.toNat
    r.xfan.toNat r.dispmode.toNat

/-- `SEED_DEFAULT m`. -/
def seedDefault (m : Mode) : List AsmLine := [seedLine m (defaultRecord m)]

/-- The modes in ascending ordinal. -/
def allModes : List Mode := [.auto, .cool, .dry, .fan, .heat]

/-- `CONSTRUCT`: INIT, then one SEED for each supplied entry in ascending ordinal; an entry is a whole
record (C5). -/
def construct (entries : Mode → Option ModeState) : List AsmLine :=
  .init :: allModes.filterMap fun m => (entries m).map (seedLine m)

/-- `SELECT m, SET_x v`: write a field of a mode that is not active and come back to `old`, which the
assembler must be told. -/
def select (m : Mode) (op : Setter) (v : Nat) (old : Mode) : List AsmLine :=
  [.set .mode (modeOrdinal m).toNat, .set op v, .set .mode (modeOrdinal old).toNat]

/-! ### Text (R94) -/

/-- The value of a symbolic operand name (R94). The louver names are PRESUMED (R24, D11): log entry 15. -/
def symbolValue (w : List Char) : Option Nat :=
  let table : List (String × Nat) :=
    [("AUTO", 0), ("COOL", 1), ("DRY", 2), ("FAN", 3), ("HEAT", 4),
     ("F_AUTO", 0), ("F_LOW", 1), ("F_MID", 2), ("F_HIGH", 3),
     ("L_OFF", 0), ("L_FULL", 1), ("L_TOP", 2), ("L_MIDTOP", 3), ("L_MID", 4), ("L_MIDBOTTOM", 5), ("L_BOTTOM", 6),
     ("L_BOTTOM3", 7), ("L_MID3", 9), ("L_TOP3", 11),
     ("D_OFF", 0), ("D_SETTING", 1), ("D_INDOOR", 2), ("D_OUTDOOR", 3), ("ON", 1), ("OFF", 0)]
  (table.find? fun e => e.1.toList == w).map (·.2)

/-- The value of one digit in a base of at most 16. -/
def digitValue (base : Nat) (c : Char) : Option Nat :=
  let n := c.toNat
  let v := if 48 ≤ n ∧ n ≤ 57 then n - 48
    else if 65 ≤ n ∧ n ≤ 70 then n - 55
    else if 97 ≤ n ∧ n ≤ 102 then n - 87
    else 16
  if v < base then some v else none

/-- The number written by a run of digits, given the number read so far. -/
def digitsValue (base : Nat) : Nat → List Char → Option Nat
  | acc, [] => some acc
  | acc, c :: rest =>
    match digitValue base c with
    | some d => digitsValue base (acc * base + d) rest
    | none => none

/-- A number: decimal, or hexadecimal with `0x` (R94). -/
def numberValue (w : List Char) : Option Nat :=
  match w with
  | '0' :: 'x' :: c :: rest => digitsValue 16 0 (c :: rest)
  | c :: rest => digitsValue 10 0 (c :: rest)
  | [] => none

/-- An operand: a symbolic name or a number (R94). -/
def operandValue (w : List Char) : Option Nat := (symbolValue w).orElse fun _ => numberValue w

/-- A blank between the parts of a line. -/
def isBlank (c : Char) : Bool := c == ' ' || c == '\t'

/-- A word without the blanks around it. -/
def trimBlanks (w : List Char) : List Char := ((w.dropWhile isBlank).reverse.dropWhile isBlank).reverse

/-- The setter of a mnemonic. -/
def setterOfName (w : List Char) : Option Setter :=
  let table : List (String × Setter) :=
    [("SET_POWER", .power), ("SET_MODE", .mode), ("SET_FAN", .fan), ("SET_LOUVER", .louver), ("SET_TEMP", .temp),
     ("SET_TURBO", .turbo), ("SET_DISPLAY", .display), ("SET_HEALTH", .health), ("SET_XFAN", .xfan),
     ("SET_DISPMODE", .dispmode)]
  (table.find? fun e => e.1.toList == w).map (·.2)

/-- The command of a mnemonic and its operand values (R94), and the pseudo-instructions of R95 that are a
mnemonic with at most one number. -/
def linesOf (name : List Char) (ops : List Nat) : Option (List AsmLine) :=
  match setterOfName name, ops with
  | some op, [v] => some [.set op v]
  | some _, _ => none
  | none, [] =>
    if name == "NOP".toList then some [.nop]
    else if name == "INIT".toList then some [.init]
    else if name == "EMIT".toList then some [.emit]
    else if name == "POWER_ON".toList then some powerOn
    else if name == "POWER_OFF".toList then some powerOff
    else none
  | none, [m] =>
    if name == "SEED_DEFAULT".toList ∧ m ≤ 4 then (modeOfOrdinal (BitVec.ofNat 3 m)).map seedDefault else none
  | none, [m, fan, louver, temp, turbo, display, health, xfan, dispmode] =>
    if name == "SEED".toList then some [.seed m fan louver temp turbo display health xfan dispmode] else none
  | none, _ => none

/-- One line of text (R94): a comment starts at `;`, the mnemonic comes first, then the operands separated by
commas. A line with nothing on it holds no command. -/
def parseLine (line : List Char) : Option (List AsmLine) :=
  let text := trimBlanks (line.takeWhile (· != ';'))
  let name := text.takeWhile fun c => !isBlank c
  let rest := trimBlanks (text.dropWhile fun c => !isBlank c)
  if text.isEmpty then some []
  else if rest.isEmpty then linesOf name []
  else ((rest.splitOn ',').mapM fun w => operandValue (trimBlanks w)).bind (linesOf name)

/-- The command words of one line of text, if the assembler accepts it (R94). -/
def assembleText (line : String) : Option (List Word) :=
  (parseLine line.toList).bind fun ls => (ls.mapM assemble).map (·.map encode)

end Sys2Proof.Machine
end

