-- ==== Sys2Proof/Machine/Frame.lean ====
section
/-! DEFINITION. The frame serializer `Bits` (42_frame_serializer.md) and the bit-reversal engine
(43_bit_reversal.md): combinational functions of the state, total and stored nowhere (R41, R141).
SWING_SET is an argument of each (R7, R147), with the spec's default. -/

namespace Sys2Proof.Machine

/-- A field placed at position `pos` of a 32-bit accumulator (R142). -/
def place {n : Nat} (v : BitVec n) (pos : Nat) : Word := v.setWidth 32 <<< pos

/-- The swing flag: set exactly for the louver codes in SWING_SET (R147). -/
def swing (sw : List (BitVec 4)) (louver : BitVec 4) : Bool := decide (louver ∈ sw)

/-- `(temp - 16) mod 16`, on integers (R148, R160). -/
def tempField (temp : BitVec 8) : BitVec 4 := BitVec.ofInt 4 ((temp.toNat : Int) - tempBias)

/-- The check nibble `(temp + MODE + 2) mod 16`, on integers (R156, R160). -/
def checkNibble (temp : BitVec 8) (mode : BitVec 3) : BitVec 4 := BitVec.ofNat 4 (temp.toNat + mode.toNat + chkBias)

/-- The fields of word 0 that do not depend on the branch on POWER (R143 to R151). -/
def word0Fields (sw : List (BitVec 4)) (power : Bool) (mode : BitVec 3) (a : ModeState) : Word :=
  b0Const ||| place mode 0 ||| place (bitValue 1 power) 3 ||| place a.fan 4
    ||| place (bitValue 1 (swing sw a.louver)) 6 ||| place (tempField a.temp) 8
    ||| place (bitValue 1 a.turbo) 20 ||| place (bitValue 1 a.display) 21 ||| place (bitValue 1 a.xfan) 23

/-- `p0`, word 0 before reversal. The one branch of the encoding (R152, R153): with power on, `health` is
placed at 22; with power off that write is skipped and bit 31 is toggled. -/
def word0 (sw : List (BitVec 4)) (power : Bool) (mode : BitVec 3) (a : ModeState) : Word :=
  let acc := word0Fields sw power mode a
  if power then acc ||| place (bitValue 1 a.health) 22 else acc ^^^ powerOffToggle

/-- `p1`, word 1 before reversal (R154 to R157). -/
def word1 (mode : BitVec 3) (a : ModeState) : Word :=
  place a.louver 0 ||| place a.dispmode 8 ||| place (checkNibble a.temp mode) 28

/-- `rev32`: bit `i` of the result is bit `31 - i` of `x` (R170). -/
def rev32 (x : Word) : Word := x.reverse

/-- One step of the mask-and-shift method: exchange neighbouring groups of `n` bits (R171). -/
def swapGroups (n : Nat) (mask x : Word) : Word := ((x >>> n) &&& mask) ||| ((x &&& mask) <<< n)

/-- The mask-and-shift method the source names (R171): one way to compute `rev32`. -/
def rev32BySwaps (x : Word) : Word :=
  let x := swapGroups 1 0x55555555#32 x
  let x := swapGroups 2 0x33333333#32 x
  let x := swapGroups 4 0x0F0F0F0F#32 x
  let x := swapGroups 8 0x00FF00FF#32 x
  (x >>> 16) ||| (x <<< 16)

/-- The protocol frame: both words, reversed (R141, R174). -/
structure Frame where
  b0 : Word
  b1 : Word
  deriving DecidableEq, Repr

/-- `p0` of a state. -/
def State.p0 (s : State) (sw : List (BitVec 4) := swingSet) : Word := word0 sw s.power s.mode s.activeRecord

/-- `p1` of a state. -/
def State.p1 (s : State) : Word := word1 s.mode s.activeRecord

/-- `Bits`, of POWER, MODE and the active record alone (R140, R141). -/
def State.bits (s : State) (sw : List (BitVec 4) := swingSet) : Frame := ⟨rev32 (s.p0 sw), rev32 s.p1⟩

end Sys2Proof.Machine
end

