-- ==== Sys2Proof/Machine/Timings.lean ====
section
/-! DEFINITION. The timing-table expander (44_timing_expander.md): the sequence `Timings` of two protocol
words as the fixed structure of R186, and its item by index as R187 gives it. -/

namespace Sys2Proof.Machine

/-- The symbol of a data bit (R183, R187). -/
def bitSymbol (b : Bool) : Category := if b then .o else .z

/-- The symbols of a word's 32 bits, bit 31 first (R185). -/
def wordSymbols (w : Word) : List Category := (List.range 32).map fun i => bitSymbol (w.getLsbD (31 - i))

/-- The 70 symbols in the fixed structure of R186: header, word 0, separator, word 1, trailing pair. -/
def symbols (b : Frame) : List Category :=
  [.h] ++ wordSymbols b.b0 ++ [.z, .o, .z, .g] ++ wordSymbols b.b1 ++ [.z]

/-- The two values of a pair, mark then space (R181, R186). -/
def pairItems (c : Category) : List Tick := [(timingTable c).mark, (timingTable c).space]

/-- `Timings`: the symbols written out pair by pair (R184). -/
def timings (b : Frame) : List Tick := (symbols b).flatMap pairItems

/-- `sym(k)`, the symbol of pair `k` (R187); no pair is numbered above 69. -/
def symbolAt (b : Frame) (k : Nat) : Option Category :=
  if k = 0 then some .h
  else if k ≤ 32 then some (bitSymbol (b.b0.getLsbD (32 - k)))
  else if k = 33 then some .z
  else if k = 34 then some .o
  else if k = 35 then some .z
  else if k = 36 then some .g
  else if k ≤ 68 then some (bitSymbol (b.b1.getLsbD (68 - k)))
  else if k = 69 then some .z
  else none

/-- `item(i)` (R187): the mark of pair `i div 2` at an even position, its space at an odd one. -/
def itemAt (b : Frame) (i : Nat) : Option Tick :=
  (symbolAt b (i / 2)).map fun c => if i % 2 = 0 then (timingTable c).mark else (timingTable c).space

/-- The item the stream offers at IDX (R190), computed from the live state (R41). An index above 139 names
no item: log entry 5. -/
def State.offeredItem (s : State) (sw : List (BitVec 4) := swingSet) : Tick :=
  (itemAt (s.bits sw) s.idx.toNat).getD (Config.absentItem s.idx)

end Sys2Proof.Machine
end

