-- ==== Sys2Proof/Machine/Ports.lean ====
section
/-! DEFINITION. The output ports (R80), each a function of the state held in the cycle and of `rst` (R3, R11).
Nothing here is stored, and reading a port changes nothing (R70). -/

namespace Sys2Proof.Machine

/-- The 20 output ports of R80, in its order. -/
structure PortOut where
  cmdReady : Bool
  bitsB0 : Word
  bitsB1 : Word
  timValid : Bool
  timData : Tick
  timMark : Bool
  timLast : Bool
  busy : Bool
  err : Bool
  errc : BitVec 2
  powerO : Bool
  modeO : BitVec 3
  fanO : BitVec 2
  louverO : BitVec 4
  tempO : BitVec 8
  turboO : Bool
  displayO : Bool
  healthO : Bool
  xfanO : Bool
  dispmodeO : BitVec 2
  deriving DecidableEq, Repr

/-- `tim_data`: the offered item while BUSY, else 0 (R189, R190). -/
def timData (s : State) (sw : List (BitVec 4) := swingSet) : Tick := if s.busy then s.offeredItem sw else 0

/-- `tim_mark`: 1 at an even position while BUSY (R189, R190). -/
def timMark (s : State) : Bool := s.busy && s.idx.toNat % 2 == 0

/-- `tim_last`: 1 at position 139 while BUSY (R189, R190). -/
def timLast (s : State) : Bool := s.busy && s.idx.toNat == lastItem

/-- What the output ports show in a cycle of state `s` in which the host drives `rst` (R80, R43, R133, R134 d). -/
def portOut (s : State) (rst : Bool) (sw : List (BitVec 4) := swingSet) : PortOut where
  cmdReady := cmdReady s rst
  bitsB0 := (s.bits sw).b0
  bitsB1 := (s.bits sw).b1
  timValid := timValid s rst
  timData := timData s sw
  timMark := timMark s
  timLast := timLast s
  busy := s.busy
  err := s.err
  errc := s.errc
  powerO := s.power
  modeO := s.mode
  fanO := s.activeRecord.fan
  louverO := s.activeRecord.louver
  tempO := s.activeRecord.temp
  turboO := s.activeRecord.turbo
  displayO := s.activeRecord.display
  healthO := s.activeRecord.health
  xfanO := s.activeRecord.xfan
  dispmodeO := s.activeRecord.dispmode

/-- The item the consumer receives at the coming edge, if one is transferred there (R11, R191). -/
def transferredItem (p : PortIn) (s : State) (sw : List (BitVec 4) := swingSet) : Option Tick :=
  if itemTransferred p s then some (timData s sw) else none

end Sys2Proof.Machine
end

