-- ==== Sys2Proof/Safety.lean ====
section
/-! DEFINITION. What claims about the block speak of: the invariants of reachable states, in-domain states,
the fault a command word asks for, sequences of steps and of commands, and what a consumer receives. -/

namespace Sys2Proof.Machine

/-- The invariants of every reachable state (R47). -/
abbrev State.Inv (s : State) : Prop :=
  s.mode.toNat ≤ 4 ∧ s.idx.toNat ≤ 139 ∧ (s.busy = false → s.idx = 0) ∧ (s.err = false ↔ s.errc = 0)

/-- A record inside the nominal domain (R32). -/
abbrev recordInDomain (r : ModeState) : Prop :=
  r.louver ∈ nominalLouver ∧ 16 ≤ r.temp.toNat ∧ r.temp.toNat ≤ 30

/-- An in-domain Controller state (R32). -/
abbrev State.InDomain (s : State) : Prop :=
  ∀ m ∈ allModes, recordInDomain (s.ms.get m)

/-- The fault cause code (R211) of a command word, read off its bits in the order of R93: a reserved opcode,
then a set reserved bit of the opcode's format (Z: 27..0, S: 27..8, M: 27 and 23..20), then a mode index above 4
(`imm` of SET_MODE, `msel` of SEED). -/
def wordCause (w : Word) : Option (BitVec 2) :=
  let op := (w >>> 28).toNat
  let reserved : Word :=
    if op = 0x0 ∨ op = 0x1 ∨ op = 0xD then 0x0FFFFFFF#32 else if op = 0x2 then 0x08F00000#32 else 0x0FFFFF00#32
  if 0xE ≤ op then some 1
  else if w &&& reserved ≠ 0 then some 2
  else if (op = 0x4 ∧ (w &&& 0xFF#32).toNat > 4) ∨ (op = 0x2 ∧ ((w >>> 24) &&& 7#32).toNat > 4) then some 3
  else none

/-- The state R213 leaves after a fault with this cause code: ERR set, ERRC the first cause, the rest kept. -/
def afterFault (code : BitVec 2) (s : State) : State :=
  { s with err := true, errc := if s.err then s.errc else code }

/-- `n` steps, stopping at the first that gives no next state. -/
def runSteps : Nat → State → Result
  | 0, s => .next s
  | n + 1, s =>
    match step s with
    | .next t => runSteps n t
    | .fault r => .fault r
    | .refused r => .refused r

/-- Follow a result with a further operation, where it is a next state. -/
def andThen (o : Result) (f : State → Result) : Result :=
  match o with
  | .next t => f t
  | .fault r => .fault r
  | .refused r => .refused r

/-- A list of commands, executed in order (R72). -/
def execAll : List Instr → State → Result
  | [], s => .next s
  | i :: rest, s => andThen (exec i s) (execAll rest)

/-- The items the consumer receives in the next `n` steps, in order (R191). -/
def delivered (sw : List (BitVec 4)) : Nat → State → List Tick
  | 0, _ => []
  | n + 1, s =>
    (transferredItem s.currentInput s sw).toList ++
      match step s with
      | .next t => delivered sw n t
      | .fault _ => []
      | .refused _ => []

/-- Which setter a command is, if it is one (R120). -/
def setterOf : Instr → Option Setter
  | .setPower _ _ => some .power
  | .setMode _ _ => some .mode
  | .setFan _ _ => some .fan
  | .setLouver _ _ => some .louver
  | .setTemp _ _ => some .temp
  | .setTurbo _ _ => some .turbo
  | .setDisplay _ _ => some .display
  | .setHealth _ _ => some .health
  | .setXfan _ _ => some .xfan
  | .setDispmode _ _ => some .dispmode
  | .nop _ | .init _ | .seed _ _ _ _ | .emit _ | .reservedE _ | .reservedF _ => none

/-- The number the view of a setter's field shows (R43, R133). -/
def viewOf (f : Setter) (o : PortOut) : Nat :=
  match f with
  | .power => o.powerO.toNat
  | .mode => o.modeO.toNat
  | .fan => o.fanO.toNat
  | .louver => o.louverO.toNat
  | .temp => o.tempO.toNat
  | .turbo => o.turboO.toNat
  | .display => o.displayO.toNat
  | .health => o.healthO.toNat
  | .xfan => o.xfanO.toNat
  | .dispmode => o.dispmodeO.toNat

/-- The later commands that may write what the view of a field shows (R134 d): INIT, the field's own setter, and
for a field of a record also SEED and the SET_MODE that shows another record. -/
def mayChangeView (f : Setter) (i : Instr) : Bool :=
  match i with
  | .init _ => true
  | .seed _ _ _ _ => f ≠ .power ∧ f ≠ .mode
  | .setMode _ _ => f ≠ .power
  | _ => setterOf i = some f

/-- Each per-mode setter (R123), with what it says that two records agree on every field but its own. -/
def perModeSetters (rsv : BitVec 20) (imm : BitVec 8) : List (Instr × (ModeState → ModeState → Prop)) :=
  [(.setFan rsv imm, fun a b => b = { a with fan := b.fan }),
   (.setLouver rsv imm, fun a b => b = { a with louver := b.louver }),
   (.setTemp rsv imm, fun a b => b = { a with temp := b.temp }),
   (.setTurbo rsv imm, fun a b => b = { a with turbo := b.turbo }),
   (.setDisplay rsv imm, fun a b => b = { a with display := b.display }),
   (.setXfan rsv imm, fun a b => b = { a with xfan := b.xfan }),
   (.setDispmode rsv imm, fun a b => b = { a with dispmode := b.dispmode })]

/-- The number of 1 bits of a word (R195). -/
def onesCount (w : Word) : Nat := (List.range 32).countP fun i => w.getLsbD i

end Sys2Proof.Machine
end

