-- ==== Sys2Proof/Certificates/Slice0/Obligations.lean ====
section
/-! DEFINITION. The statements about the block. Each docstring names the rule or the section of spec/ that the
statement formalises. In all of them `imm.getLsbD 0` is `imm[0]` and `imm.extractLsb' 0 n` is `imm[n-1:0]`. -/

open Sys2Proof Sys2Proof.Machine

/-! ### Encoding -/

/-- 30_encoding.md sections 2 and 4: no bit of a command is lost in its word, reserved bits included. -/
def Obligations.EncodeThenDecodeGivesTheCommandBack : Prop := ∀ i : Instr, decodeWord (encode i) = i

/-- 30_encoding.md sections 2 and 4: no bit of a word is lost in its command. -/
def Obligations.DecodeThenEncodeGivesTheWordBack : Prop := ∀ w : Word, encode (decodeWord w) = w

/-- R88: the `match` and `mask` of each row select exactly the well-formed words of its command, with the
operands of the format, and every other word is not well-formed. -/
def Obligations.OpcodeMapSelectsEachCommand : Prop :=
  ∀ w : Word,
    (w &&& 0xFFFFFFFF#32 = 0x00000000#32 ↔ decodeWord w = .nop 0) ∧
    (w &&& 0xFFFFFFFF#32 = 0x10000000#32 ↔ decodeWord w = .init 0) ∧
    (w &&& 0xF8F00000#32 = 0x20000000#32 ↔ decodeWord w = .seed 0 (w.extractLsb' 24 3) 0 (w.extractLsb' 0 20)) ∧
    (w &&& 0xFFFFFF00#32 = 0x30000000#32 ↔ decodeWord w = .setPower 0 (w.extractLsb' 0 8)) ∧
    (w &&& 0xFFFFFF00#32 = 0x40000000#32 ↔ decodeWord w = .setMode 0 (w.extractLsb' 0 8)) ∧
    (w &&& 0xFFFFFF00#32 = 0x50000000#32 ↔ decodeWord w = .setFan 0 (w.extractLsb' 0 8)) ∧
    (w &&& 0xFFFFFF00#32 = 0x60000000#32 ↔ decodeWord w = .setLouver 0 (w.extractLsb' 0 8)) ∧
    (w &&& 0xFFFFFF00#32 = 0x70000000#32 ↔ decodeWord w = .setTemp 0 (w.extractLsb' 0 8)) ∧
    (w &&& 0xFFFFFF00#32 = 0x80000000#32 ↔ decodeWord w = .setTurbo 0 (w.extractLsb' 0 8)) ∧
    (w &&& 0xFFFFFF00#32 = 0x90000000#32 ↔ decodeWord w = .setDisplay 0 (w.extractLsb' 0 8)) ∧
    (w &&& 0xFFFFFF00#32 = 0xA0000000#32 ↔ decodeWord w = .setHealth 0 (w.extractLsb' 0 8)) ∧
    (w &&& 0xFFFFFF00#32 = 0xB0000000#32 ↔ decodeWord w = .setXfan 0 (w.extractLsb' 0 8)) ∧
    (w &&& 0xFFFFFF00#32 = 0xC0000000#32 ↔ decodeWord w = .setDispmode 0 (w.extractLsb' 0 8)) ∧
    (w &&& 0xFFFFFFFF#32 = 0xD0000000#32 ↔ decodeWord w = .emit 0) ∧
    (w &&& 0xF0000000#32 = 0xE0000000#32 ↔ decodeWord w = .reservedE (w.extractLsb' 0 28)) ∧
    (w &&& 0xF0000000#32 = 0xF0000000#32 ↔ decodeWord w = .reservedF (w.extractLsb' 0 28)) ∧
    (decodeWord w).wellFormed = matchesRow w

/-- 95_test_vectors.md sections 2.5 and 2.6: words the spec writes out, one or more of each family. -/
def Obligations.WordsTheSpecWritesOutDecode : Prop :=
  decodeWord 0x10000000#32 = .init 0 ∧ decodeWord 0x210285C9#32 = .seed 0 1 0 0x285C9#20 ∧
  decodeWord 0x40000004#32 = .setMode 0 4 ∧ decodeWord 0x6000000B#32 = .setLouver 0 11 ∧
  decodeWord 0xA0000100#32 = .setHealth 1 0 ∧ decodeWord 0x2F000000#32 = .seed 1 7 0 0 ∧
  decodeWord 0xD0000000#32 = .emit 0 ∧ decodeWord 0xE0000001#32 = .reservedE 1

/-- R86: the layout of the packed record, `pack`, and that `unpack` is its total inverse. -/
def Obligations.PackedRecordLayoutAndInverse : Prop :=
  (∀ v : BitVec 20, unpack v =
    ⟨v.extractLsb' 0 2, v.extractLsb' 2 4, v.extractLsb' 6 8, v.getLsbD 14, v.getLsbD 15, v.getLsbD 16, v.getLsbD 17,
      v.extractLsb' 18 2⟩) ∧
  (∀ r : ModeState, (pack r).toNat =
    r.fan.toNat ||| r.louver.toNat <<< 2 ||| r.temp.toNat <<< 6 ||| r.turbo.toNat <<< 14 ||| r.display.toNat <<< 15
      ||| r.health.toNat <<< 16 ||| r.xfan.toNat <<< 17 ||| r.dispmode.toNat <<< 18) ∧
  (∀ r : ModeState, unpack (pack r) = r) ∧ (∀ v : BitVec 20, pack (unpack v) = v) ∧
  pack ⟨0, 0, 25, false, true, true, false, 0⟩ = 0x18640#20

/-! ### Clock edges -/

/-- 30_encoding.md section 1: a word offered at an edge with `rst = 0` and BUSY = 0 is decoded, and the step is
the execution of the command it decodes to, with the edge's inputs used up. -/
def Obligations.StepExecutesTheOfferedCommand : Prop :=
  ∀ (s : State) (p : PortIn) (rest : List PortIn) (i : Instr),
    s.inputs = p :: rest → p.rst = false → p.cmdValid = true → s.busy = false → decodeWord p.cmd = i →
    step s = exec i { s with inputs := rest }

/-- R81: `cmd_ready`; a command's whole effect happens at the edge that accepts it; in any other cycle the
command port has no effect, whatever `cmd` holds. -/
def Obligations.CommandPortHandshake : Prop :=
  (∀ (s : State) (rst : Bool) (sw : List (BitVec 4)), (portOut s rst sw).cmdReady = (!s.busy && !rst)) ∧
  (∀ (s : State) (p : PortIn) (rest : List PortIn), p.rst = false → p.cmdValid = true → (portOut s p.rst).cmdReady = true →
    step { s with inputs := p :: rest } = exec (decodeWord p.cmd) { s with inputs := rest }) ∧
  (∀ (s : State) (p : PortIn) (rest : List PortIn) (w : Word),
    ¬ (p.rst = false ∧ p.cmdValid = true ∧ (portOut s p.rst).cmdReady = true) →
    step { s with inputs := { p with cmd := w, cmdValid := false } :: rest } = step { s with inputs := p :: rest })

/-- 60_exceptions.md section 3: every edge performs exactly one of a reset, a command, a transfer, nothing, and
what each does. The model's choices: an empty list of inputs is a quiet cycle (log entry 1), and a transfer with
IDX above 139, which no state after reset has, stops by name (log entry 5). -/
def Obligations.EveryEdgeDoesExactlyOneThing : Prop :=
  (∀ (s : State) (p : PortIn) (rest : List PortIn), s.inputs = p :: rest →
    step s =
      if p.rst = true then .next { State.reset with inputs := rest }
      else if s.busy = false then
        if p.cmdValid = true then exec (decodeWord p.cmd) { s with inputs := rest } else .next { s with inputs := rest }
      else if p.timReady = true then
        if s.idx.toNat < 139 then .next { s with idx := s.idx + 1, inputs := rest }
        else if s.idx.toNat = 139 then .next { s with busy := false, idx := 0, inputs := rest }
        else .fault (.streamIndexOutOfRange s.idx)
      else .next { s with inputs := rest }) ∧
  (∀ s : State, s.inputs = [] → step s = .next s)

/-- R230: at an edge with `rst = 1` every register takes its reset value, whatever the state and the other
inputs; a second such edge repeats it. -/
def Obligations.ResetEdgeTakesResetValues : Prop :=
  ∀ (s : State) (p : PortIn) (rest : List PortIn), s.inputs = p :: rest → p.rst = true →
    ∃ t, step s = .next t ∧ (∀ m, t.ms.get m = defaultRecord m) ∧ t.power = false ∧ t.mode = 0 ∧ t.busy = false ∧
      t.idx = 0 ∧ t.err = false ∧ t.errc = 0 ∧ t.inputs = rest

/-- R31: the factory defaults, field by field and packed; they are the records after reset and after INIT. -/
def Obligations.FactoryDefaultsAsTheTableGivesThem : Prop :=
  defaultRecord .auto = ⟨0, 0, 25, false, true, true, false, 0⟩ ∧ pack (defaultRecord .auto) = 0x18640#20 ∧
  defaultRecord .cool = ⟨0, 0, 25, false, true, true, false, 0⟩ ∧ pack (defaultRecord .cool) = 0x18640#20 ∧
  defaultRecord .dry = ⟨1, 0, 25, false, true, true, false, 0⟩ ∧ pack (defaultRecord .dry) = 0x18641#20 ∧
  defaultRecord .fan = ⟨0, 0, 25, false, true, true, false, 0⟩ ∧ pack (defaultRecord .fan) = 0x18640#20 ∧
  defaultRecord .heat = ⟨0, 0, 28, false, true, true, false, 0⟩ ∧ pack (defaultRecord .heat) = 0x18700#20 ∧
  (∀ m, State.reset.ms.get m = defaultRecord m) ∧ (∀ m, defaultFile.get m = defaultRecord m) ∧
  (∀ s : State, ∃ t, exec (.init 0) s = .next t ∧ ∀ m, t.ms.get m = defaultRecord m)

/-- 10_state.md section 5: the registers right after reset, the Timing Table, and the frame the outputs then
show (which the spec derives, and which rests on SWING_SET without the code 0). -/
def Obligations.StateRightAfterReset : Prop :=
  (∀ m, State.reset.ms.get m = defaultRecord m) ∧ State.reset.power = false ∧ State.reset.mode = 0 ∧
  State.reset.busy = false ∧ State.reset.idx = 0 ∧ State.reset.err = false ∧ State.reset.errc = 0 ∧
  timingTable .z = ⟨632, 527⟩ ∧ timingTable .o = ⟨632, 1606⟩ ∧ timingTable .g = ⟨632, 19816⟩ ∧
  timingTable .h = ⟨8948, 4422⟩ ∧
  (∀ sw : List (BitVec 4), 0#4 ∉ sw → State.reset.bits sw = ⟨0x0090040B#32, 0x0000000D#32⟩)

/-! ### Commands: result, completion and fault of each -/

/-- R114: NOP writes nothing; cause 2 if any of bits 27..0 is 1. -/
def Obligations.NopWritesNothing : Prop :=
  decodeWord 0x00000000#32 = .nop 0 ∧ encode (.nop 0) = 0x00000000#32 ∧
  (∀ s : State, exec (.nop 0) s = .next s) ∧
  (∀ (rsv : BitVec 28) (s : State), rsv ≠ 0 → exec (.nop rsv) s = .next (afterFault 2 s))

/-- R111: INIT gives every record its default and POWER and MODE 0, keeps ERR, ERRC, BUSY and IDX, and
faults with cause 2 if any of bits 27..0 is 1. -/
def Obligations.InitConstructsWithDefaults : Prop :=
  decodeWord 0x10000000#32 = .init 0 ∧ encode (.init 0) = 0x10000000#32 ∧
  (∀ s : State, exec (.init 0) s =
    .next { s with
      ms := ⟨defaultRecord .auto, defaultRecord .cool, defaultRecord .dry, defaultRecord .fan, defaultRecord .heat⟩
      power := false
      mode := 0 }) ∧
  (∀ (rsv : BitVec 28) (s : State), rsv ≠ 0 → exec (.init rsv) s = .next (afterFault 2 s))

/-- R112: SEED writes all eight fields of `MS[msel]` and nothing else (`health` not broadcast); cause 2 on a
reserved bit, otherwise cause 3 if `msel` is 5, 6 or 7. -/
def Obligations.SeedWritesOneWholeRecord : Prop :=
  (∀ (msel : BitVec 3) (ms : BitVec 20),
    decodeWord (0x20000000#32 ||| (msel.setWidth 32 <<< 24) ||| ms.setWidth 32) = .seed 0 msel 0 ms) ∧
  (∀ (m : Mode) (ms : BitVec 20) (s : State), exec (.seed 0 (modeOrdinal m) 0 ms) s =
    .next { s with ms := s.ms.set m
                      ⟨ms.extractLsb' 0 2, ms.extractLsb' 2 4, ms.extractLsb' 6 8, ms.getLsbD 14, ms.getLsbD 15, ms.getLsbD 16,
                        ms.getLsbD 17, ms.extractLsb' 18 2⟩ }) ∧
  (∀ (hi : BitVec 1) (msel : BitVec 3) (lo : BitVec 4) (ms : BitVec 20) (s : State), hi ≠ 0 ∨ lo ≠ 0 →
    exec (.seed hi msel lo ms) s = .next (afterFault 2 s)) ∧
  (∀ (msel : BitVec 3) (ms : BitVec 20) (s : State), 4 < msel.toNat →
    exec (.seed 0 msel 0 ms) s = .next (afterFault 3 s))

/-- R121: SET_POWER writes POWER alone; cause 2 on a reserved bit; no form of SET_MODE changes POWER. -/
def Obligations.SetPowerWritesPower : Prop :=
  (∀ imm : BitVec 8, decodeWord (0x30000000#32 ||| imm.setWidth 32) = .setPower 0 imm) ∧
  (∀ (imm : BitVec 8) (s : State), exec (.setPower 0 imm) s = .next { s with power := imm.getLsbD 0 }) ∧
  (∀ (rsv : BitVec 20) (imm : BitVec 8) (s : State), rsv ≠ 0 → exec (.setPower rsv imm) s = .next (afterFault 2 s)) ∧
  (∀ (rsv : BitVec 20) (imm : BitVec 8) (s : State), ∃ t, exec (.setMode rsv imm) s = .next t ∧ t.power = s.power)

/-- R122: SET_MODE writes MODE alone if the whole `imm` is at most 4; otherwise cause 3 and MODE is kept;
cause 2 first on a reserved bit. -/
def Obligations.SetModeSelectsTheActiveMode : Prop :=
  (∀ imm : BitVec 8, decodeWord (0x40000000#32 ||| imm.setWidth 32) = .setMode 0 imm) ∧
  (∀ (imm : BitVec 8) (s : State), imm.toNat ≤ 4 → exec (.setMode 0 imm) s = .next { s with mode := imm.extractLsb' 0 3 }) ∧
  (∀ (imm : BitVec 8) (s : State), 4 < imm.toNat → exec (.setMode 0 imm) s = .next (afterFault 3 s)) ∧
  (∀ (rsv : BitVec 20) (imm : BitVec 8) (s : State), rsv ≠ 0 → exec (.setMode rsv imm) s = .next (afterFault 2 s))

/-- R124: SET_FAN writes the active record's fan alone; cause 2 on a reserved bit. -/
def Obligations.SetFanWritesActiveFan : Prop :=
  (∀ imm : BitVec 8, decodeWord (0x50000000#32 ||| imm.setWidth 32) = .setFan 0 imm) ∧
  (∀ (imm : BitVec 8) (s : State) (m : Mode), s.mode = modeOrdinal m → exec (.setFan 0 imm) s =
    .next { s with ms := s.ms.set m { s.ms.get m with fan := imm.extractLsb' 0 2 } }) ∧
  (∀ (rsv : BitVec 20) (imm : BitVec 8) (s : State), rsv ≠ 0 → exec (.setFan rsv imm) s = .next (afterFault 2 s))

/-- R125: SET_LOUVER writes the active record's louver alone, every code verbatim; cause 2 on a reserved bit. -/
def Obligations.SetLouverWritesActiveLouver : Prop :=
  (∀ imm : BitVec 8, decodeWord (0x60000000#32 ||| imm.setWidth 32) = .setLouver 0 imm) ∧
  (∀ (imm : BitVec 8) (s : State) (m : Mode), s.mode = modeOrdinal m → exec (.setLouver 0 imm) s =
    .next { s with ms := s.ms.set m { s.ms.get m with louver := imm.extractLsb' 0 4 } }) ∧
  (∀ (rsv : BitVec 20) (imm : BitVec 8) (s : State), rsv ≠ 0 → exec (.setLouver rsv imm) s = .next (afterFault 2 s))

/-- R126: SET_TEMP writes the active record's temp alone, every value verbatim, and `temp_o` then shows it
verbatim; cause 2 on a reserved bit. -/
def Obligations.SetTempWritesActiveTemp : Prop :=
  (∀ imm : BitVec 8, decodeWord (0x70000000#32 ||| imm.setWidth 32) = .setTemp 0 imm) ∧
  (∀ (imm : BitVec 8) (s : State) (m : Mode), s.mode = modeOrdinal m → exec (.setTemp 0 imm) s =
    .next { s with ms := s.ms.set m { s.ms.get m with temp := imm } }) ∧
  (∀ (imm : BitVec 8) (s : State) (m : Mode) (rst : Bool) (sw : List (BitVec 4)), s.mode = modeOrdinal m →
    ∃ t, exec (.setTemp 0 imm) s = .next t ∧ (portOut t rst sw).tempO = imm) ∧
  (∀ (rsv : BitVec 20) (imm : BitVec 8) (s : State), rsv ≠ 0 → exec (.setTemp rsv imm) s = .next (afterFault 2 s))

/-- R127: SET_TURBO writes the active record's turbo alone; cause 2 on a reserved bit. -/
def Obligations.SetTurboWritesActiveTurbo : Prop :=
  (∀ imm : BitVec 8, decodeWord (0x80000000#32 ||| imm.setWidth 32) = .setTurbo 0 imm) ∧
  (∀ (imm : BitVec 8) (s : State) (m : Mode), s.mode = modeOrdinal m → exec (.setTurbo 0 imm) s =
    .next { s with ms := s.ms.set m { s.ms.get m with turbo := imm.getLsbD 0 } }) ∧
  (∀ (rsv : BitVec 20) (imm : BitVec 8) (s : State), rsv ≠ 0 → exec (.setTurbo rsv imm) s = .next (afterFault 2 s))

/-- R128: SET_DISPLAY writes the active record's display alone; cause 2 on a reserved bit. -/
def Obligations.SetDisplayWritesActiveDisplay : Prop :=
  (∀ imm : BitVec 8, decodeWord (0x90000000#32 ||| imm.setWidth 32) = .setDisplay 0 imm) ∧
  (∀ (imm : BitVec 8) (s : State) (m : Mode), s.mode = modeOrdinal m → exec (.setDisplay 0 imm) s =
    .next { s with ms := s.ms.set m { s.ms.get m with display := imm.getLsbD 0 } }) ∧
  (∀ (rsv : BitVec 20) (imm : BitVec 8) (s : State), rsv ≠ 0 → exec (.setDisplay rsv imm) s = .next (afterFault 2 s))

/-- R130: SET_HEALTH writes the health of all five records at once, whatever MODE holds; cause 2 on a
reserved bit. -/
def Obligations.SetHealthBroadcastsToAllFive : Prop :=
  (∀ imm : BitVec 8, decodeWord (0xA0000000#32 ||| imm.setWidth 32) = .setHealth 0 imm) ∧
  (∀ (imm : BitVec 8) (s : State), ∃ f, exec (.setHealth 0 imm) s = .next { s with ms := f } ∧
    ∀ m, f.get m = { s.ms.get m with health := imm.getLsbD 0 }) ∧
  (∀ (rsv : BitVec 20) (imm : BitVec 8) (s : State), rsv ≠ 0 → exec (.setHealth rsv imm) s = .next (afterFault 2 s))

/-- R131: SET_XFAN writes the active record's xfan alone; cause 2 on a reserved bit. -/
def Obligations.SetXfanWritesActiveXfan : Prop :=
  (∀ imm : BitVec 8, decodeWord (0xB0000000#32 ||| imm.setWidth 32) = .setXfan 0 imm) ∧
  (∀ (imm : BitVec 8) (s : State) (m : Mode), s.mode = modeOrdinal m → exec (.setXfan 0 imm) s =
    .next { s with ms := s.ms.set m { s.ms.get m with xfan := imm.getLsbD 0 } }) ∧
  (∀ (rsv : BitVec 20) (imm : BitVec 8) (s : State), rsv ≠ 0 → exec (.setXfan rsv imm) s = .next (afterFault 2 s))

/-- R132: SET_DISPMODE writes the active record's dispmode alone; cause 2 on a reserved bit. -/
def Obligations.SetDispmodeWritesActiveDispmode : Prop :=
  (∀ imm : BitVec 8, decodeWord (0xC0000000#32 ||| imm.setWidth 32) = .setDispmode 0 imm) ∧
  (∀ (imm : BitVec 8) (s : State) (m : Mode), s.mode = modeOrdinal m → exec (.setDispmode 0 imm) s =
    .next { s with ms := s.ms.set m { s.ms.get m with dispmode := imm.extractLsb' 0 2 } }) ∧
  (∀ (rsv : BitVec 20) (imm : BitVec 8) (s : State), rsv ≠ 0 → exec (.setDispmode rsv imm) s = .next (afterFault 2 s))

/-- R188: EMIT sets BUSY and clears IDX and writes nothing else, with ERR set or not; cause 2, and BUSY kept,
if any of bits 27..0 is 1. -/
def Obligations.EmitStartsTheStream : Prop :=
  decodeWord 0xD0000000#32 = .emit 0 ∧ encode (.emit 0) = 0xD0000000#32 ∧
  (∀ s : State, exec (.emit 0) s = .next { s with busy := true, idx := 0 }) ∧
  (∀ (rsv : BitVec 28) (s : State), rsv ≠ 0 → exec (.emit rsv) s = .next (afterFault 2 s))

/-- R89: a word with opcode `0xE` or `0xF` faults with cause 1 whatever its other bits hold. -/
def Obligations.ReservedOpcodesFaultWithCauseOne : Prop :=
  (∀ (rest : BitVec 28) (s : State), decodeWord (0xE#4 ++ rest) = .reservedE rest ∧
    exec (.reservedE rest) s = .next (afterFault 1 s)) ∧
  (∀ (rest : BitVec 28) (s : State), decodeWord (0xF#4 ++ rest) = .reservedF rest ∧
    exec (.reservedF rest) s = .next (afterFault 1 s))

/-- 41_setters.md section 1 and 70_reset_and_hazards.md section 1: while MODE holds 5, 6 or 7 (no state after
reset does) a well-formed per-mode setter stops by name. The model's choice: log entry 4. -/
def Obligations.PerModeSetterWithoutRecordStops : Prop :=
  ∀ (imm : BitVec 8) (s : State), 4 < s.mode.toNat →
    ∀ e ∈ perModeSetters 0 imm, exec e.1 s = .fault (.noModeState s.mode)

/-! ### Faults -/

/-- R210, R213, R214: every word that faults reports exactly one cause, the first in the order of priority, and
leaves everything but ERR and ERRC, on every output too; it is accepted like any other; a word that does not fault
keeps ERR and ERRC. -/
def Obligations.EveryWordFaultsWithItsFirstCause : Prop :=
  (∀ (w : Word) (s : State),
    match wordCause w with
    | some c => exec (decodeWord w) s = .next (afterFault c s)
    | none => ∀ t, exec (decodeWord w) s = .next t → t.err = s.err ∧ t.errc = s.errc) ∧
  (∀ (s : State) (p : PortIn) (rest : List PortIn) (c : BitVec 2), s.inputs = p :: rest → p.rst = false →
    p.cmdValid = true → s.busy = false → wordCause p.cmd = some c →
    step s = .next (afterFault c { s with inputs := rest })) ∧
  (∀ (s : State) (c : BitVec 2) (rst : Bool) (sw : List (BitVec 4)), portOut (afterFault c s) rst sw =
    { portOut s rst sw with err := true, errc := if s.err then s.errc else c })

/-- R216: with ERR set, no step but a reset clears it or changes ERRC; and the block keeps working: a command
does with ERR set what it does with ERR clear, and the frame is the same. -/
def Obligations.ErrIsStickyAndTheBlockKeepsWorking : Prop :=
  (∀ s t : State, s.err = true → s.currentInput.rst = false → step s = .next t → t.err = true ∧ t.errc = s.errc) ∧
  (∀ (w : Word) (s t : State) (c : BitVec 2), wordCause w = none → exec (decodeWord w) s = .next t →
    exec (decodeWord w) { s with err := true, errc := c } = .next { t with err := true, errc := c }) ∧
  (∀ (s : State) (c : BitVec 2) (sw : List (BitVec 4)), ({ s with err := true, errc := c } : State).bits sw = s.bits sw)

/-- 60_exceptions.md section 2: ERR or ERRC changes only at a reset, or at an edge that accepts a faulting word
while ERR is 0, and then to that word's cause. -/
def Obligations.OnlyAFaultingWordSetsErr : Prop :=
  ∀ s t : State, step s = .next t → (t.err ≠ s.err ∨ t.errc ≠ s.errc) →
    (s.currentInput.rst = true ∧ t.err = false ∧ t.errc = 0) ∨
    (s.currentInput.cmdValid = true ∧ s.busy = false ∧ s.err = false ∧
      ∃ c, wordCause s.currentInput.cmd = some c ∧ t.err = true ∧ t.errc = c)

/-! ### The whole machine -/

/-- 10_state.md section 3: MODE changes only by a reset, by INIT or by SET_MODE. -/
def Obligations.OnlySetModeInitOrResetWriteMode : Prop :=
  ∀ s t : State, step s = .next t → t.mode ≠ s.mode →
    s.currentInput.rst = true ∨
    (s.currentInput.cmdValid = true ∧ s.busy = false ∧
      (decodeWord s.currentInput.cmd = .init 0 ∨ ∃ imm, decodeWord s.currentInput.cmd = .setMode 0 imm))

/-- 10_state.md section 3: a record that is not active keeps its value unless the block is reset, INIT is
executed, SEED names it, or SET_HEALTH is executed. -/
def Obligations.InactiveRecordsKeepTheirValue : Prop :=
  ∀ (s t : State) (m : Mode), step s = .next t → s.mode ≠ modeOrdinal m → t.ms.get m ≠ s.ms.get m →
    s.currentInput.rst = true ∨
    (s.currentInput.cmdValid = true ∧ s.busy = false ∧
      (decodeWord s.currentInput.cmd = .init 0 ∨ (∃ ms, decodeWord s.currentInput.cmd = .seed 0 (modeOrdinal m) 0 ms) ∨
        ∃ imm, decodeWord s.currentInput.cmd = .setHealth 0 imm))

/-- 10_state.md section 3 and 70_reset_and_hazards.md section 3: while BUSY is 1 and there is no reset, no step
changes the Controller state or the fault flag, so a sequence is a snapshot; only EMIT sets BUSY. -/
def Obligations.BusyFreezesTheController : Prop :=
  (∀ s t : State, step s = .next t → s.busy = true → s.currentInput.rst = false →
    t.ms = s.ms ∧ t.power = s.power ∧ t.mode = s.mode ∧ t.err = s.err ∧ t.errc = s.errc) ∧
  (∀ s t : State, step s = .next t → s.busy = false → t.busy = true →
    s.currentInput.cmdValid = true ∧ decodeWord s.currentInput.cmd = .emit 0 ∧ t.idx = 0)

/-- 10_state.md section 5: the invariants hold right after reset. -/
def Obligations.InvariantsHoldAtReset : Prop := State.reset.Inv

/-- 10_state.md section 5: from every state in which the invariants hold, whatever the host drives, a step
gives a state in which they hold: MODE at most 4, IDX at most 139 and 0 when idle, ERR 0 exactly when ERRC is 0. -/
def Obligations.EveryStepKeepsTheInvariants : Prop := ∀ s t : State, s.Inv → step s = .next t → t.Inv

/-- 00_scope.md section 3 and 60_exceptions.md section 1: from a state in which the invariants hold no step
stops, whatever the host drives: every fault of the block is a next state. -/
def Obligations.NoStepStopsWhereTheInvariantsHold : Prop := ∀ s : State, s.Inv → ∃ t, step s = .next t

/-! ### Frames -/

/-- 41_setters.md section 2 (isolation): a per-mode setter leaves every record but the active one, every other
field of that one, and every other register; ERR and ERRC too, unless a reserved bit is set, and then every record. -/
def Obligations.FrameOfPerModeSetters : Prop :=
  ∀ (rsv : BitVec 20) (imm : BitVec 8) (s t : State), ∀ e ∈ perModeSetters rsv imm, exec e.1 s = .next t →
    t.power = s.power ∧ t.mode = s.mode ∧ t.busy = s.busy ∧ t.idx = s.idx ∧ t.inputs = s.inputs ∧
    (∀ m, s.mode ≠ modeOrdinal m → t.ms.get m = s.ms.get m) ∧
    (∀ m, s.mode = modeOrdinal m → e.2 (s.ms.get m) (t.ms.get m)) ∧
    (rsv = 0 → t.err = s.err ∧ t.errc = s.errc) ∧ (rsv ≠ 0 → t.ms = s.ms)

/-- 40_construct.md section 2, 41_setters.md section 1, 44_timing_expander.md section 3, 60_exceptions.md
section 2: what NOP, INIT, SEED, SET_POWER, SET_MODE, SET_HEALTH, EMIT and the reserved opcodes leave unchanged. -/
def Obligations.FrameOfTheOtherCommands : Prop :=
  ∀ s t : State,
    (exec (.nop 0) s = .next t → t = s) ∧
    (exec (.init 0) s = .next t → t.busy = s.busy ∧ t.idx = s.idx ∧ t.err = s.err ∧ t.errc = s.errc ∧ t.inputs = s.inputs) ∧
    (∀ m ms, exec (.seed 0 (modeOrdinal m) 0 ms) s = .next t →
      t = { s with ms := t.ms } ∧ ∀ n, n ≠ m → t.ms.get n = s.ms.get n) ∧
    (∀ imm, exec (.setPower 0 imm) s = .next t → t = { s with power := t.power }) ∧
    (∀ imm, imm.toNat ≤ 4 → exec (.setMode 0 imm) s = .next t → t = { s with mode := t.mode }) ∧
    (∀ imm, exec (.setHealth 0 imm) s = .next t →
      t = { s with ms := t.ms } ∧ ∀ m, t.ms.get m = { s.ms.get m with health := (t.ms.get m).health }) ∧
    (exec (.emit 0) s = .next t → t = { s with busy := t.busy, idx := t.idx }) ∧
    (∀ rest, exec (.reservedE rest) s = .next t → t = { s with err := t.err, errc := t.errc }) ∧
    (∀ rest, exec (.reservedF rest) s = .next t → t = { s with err := t.err, errc := t.errc })

/-! ### Laws of the setters and of construction -/

/-- R43: what each view shows. -/
def Obligations.ViewsShowTheActiveRecord : Prop :=
  ∀ (s : State) (m : Mode) (rst : Bool) (sw : List (BitVec 4)),
    (portOut s rst sw).powerO = s.power ∧ (portOut s rst sw).modeO = s.mode ∧
    (s.mode = modeOrdinal m →
      (portOut s rst sw).fanO = (s.ms.get m).fan ∧ (portOut s rst sw).louverO = (s.ms.get m).louver ∧
      (portOut s rst sw).tempO = (s.ms.get m).temp ∧ (portOut s rst sw).turboO = (s.ms.get m).turbo ∧
      (portOut s rst sw).displayO = (s.ms.get m).display ∧ (portOut s rst sw).healthO = (s.ms.get m).health ∧
      (portOut s rst sw).xfanO = (s.ms.get m).xfan ∧ (portOut s rst sw).dispmodeO = (s.ms.get m).dispmode)

/-- 41_setters.md section 2 (read after write): after a setter, the view of what it wrote shows its operand,
cut to the field. -/
def Obligations.ViewsShowWhatASetterWrote : Prop :=
  ∀ (s : State) (m : Mode) (imm : BitVec 8) (rst : Bool) (sw : List (BitVec 4)), s.mode = modeOrdinal m →
    (∃ t, exec (.setPower 0 imm) s = .next t ∧ (portOut t rst sw).powerO = imm.getLsbD 0) ∧
    (imm.toNat ≤ 4 → ∃ t, exec (.setMode 0 imm) s = .next t ∧ (portOut t rst sw).modeO.toNat = imm.toNat) ∧
    (∃ t, exec (.setFan 0 imm) s = .next t ∧ (portOut t rst sw).fanO = imm.extractLsb' 0 2) ∧
    (∃ t, exec (.setLouver 0 imm) s = .next t ∧ (portOut t rst sw).louverO = imm.extractLsb' 0 4) ∧
    (∃ t, exec (.setTemp 0 imm) s = .next t ∧ (portOut t rst sw).tempO = imm) ∧
    (∃ t, exec (.setTurbo 0 imm) s = .next t ∧ (portOut t rst sw).turboO = imm.getLsbD 0) ∧
    (∃ t, exec (.setDisplay 0 imm) s = .next t ∧ (portOut t rst sw).displayO = imm.getLsbD 0) ∧
    (∃ t, exec (.setHealth 0 imm) s = .next t ∧ (portOut t rst sw).healthO = imm.getLsbD 0) ∧
    (∃ t, exec (.setXfan 0 imm) s = .next t ∧ (portOut t rst sw).xfanO = imm.getLsbD 0) ∧
    (∃ t, exec (.setDispmode 0 imm) s = .next t ∧ (portOut t rst sw).dispmodeO = imm.extractLsb' 0 2)

/-- 41_setters.md section 1: every setter is idempotent, its faulting forms included. -/
def Obligations.SettersAreIdempotent : Prop :=
  ∀ (i : Instr) (s t : State), (setterOf i).isSome = true → exec i s = .next t → exec i t = .next t

/-- 41_setters.md section 1: two setters of different fields commute (MODE is no field but the selector, so
SET_MODE is not among them), their faulting forms included. -/
def Obligations.SettersOfDifferentFieldsCommute : Prop :=
  ∀ (i j : Instr) (a b : Setter) (s : State), setterOf i = some a → setterOf j = some b → a ≠ b → a ≠ .mode → b ≠ .mode →
    andThen (exec i s) (exec j) = andThen (exec j s) (exec i)

/-- 40_construct.md section 1 and 30_encoding.md section 6: CONSTRUCT assembles, and from any state it leaves
each supplied record as given, each other one at its default, POWER and MODE 0 and the rest unchanged. -/
def Obligations.ConstructGivesSuppliedOrDefaultRecords : Prop :=
  ∀ (entries : Mode → Option ModeState) (s : State), ∃ is t,
    (construct entries).mapM assemble = some is ∧ execAll is s = .next t ∧
    (∀ m, t.ms.get m = (entries m).getD (defaultRecord m)) ∧ t = { s with ms := t.ms, power := false, mode := 0 }

/-! ### The frame serializer -/

/-- R144, R145, R146, R148, R149, R150, R151, R152 for word 0 and R154, R155, R156 for word 1: the fields of
both words before reversal, at their positions. -/
def Obligations.FrameFieldsStandAtTheirPositions : Prop :=
  ∀ (sw : List (BitVec 4)) (s : State) (m : Mode), s.mode = modeOrdinal m →
    (s.p0 sw).extractLsb' 0 3 = s.mode ∧ (s.p0 sw).getLsbD 3 = s.power ∧
    (s.p0 sw).extractLsb' 4 2 = (s.ms.get m).fan ∧
    (((s.p0 sw).extractLsb' 8 4).toNat : Int) = (((s.ms.get m).temp.toNat : Int) - 16) % 16 ∧
    (s.p0 sw).extractLsb' 8 4 = (s.ms.get m).temp.extractLsb' 0 4 ∧
    (s.p0 sw).getLsbD 20 = (s.ms.get m).turbo ∧ (s.p0 sw).getLsbD 21 = (s.ms.get m).display ∧
    (s.p0 sw).getLsbD 23 = (s.ms.get m).xfan ∧ (s.p0 sw).getLsbD 22 = ((s.ms.get m).health && s.power) ∧
    s.p1.extractLsb' 0 4 = (s.ms.get m).louver ∧ s.p1.extractLsb' 8 2 = (s.ms.get m).dispmode ∧
    (s.p1.extractLsb' 28 4).toNat = ((s.ms.get m).temp.toNat + s.mode.toNat + 2) % 16

/-- R143, R153: the constant flags, and the toggle of bit 31 when power is off, as an exclusive-or. -/
def Obligations.WordZeroFlagsAndPowerOffToggle : Prop :=
  (∀ (sw : List (BitVec 4)) (power : Bool) (mode : BitVec 3) (a : ModeState),
    (word0 sw power mode a).getLsbD 28 = true ∧ (word0 sw power mode a).getLsbD 29 = false ∧
    (word0 sw power mode a).getLsbD 30 = true ∧ (word0 sw power mode a).getLsbD 31 = !power ∧
    (word0 sw power mode a).extractLsb' 28 4 = if power then 0x5#4 else 0xD#4) ∧
  (∀ (sw : List (BitVec 4)) (mode : BitVec 3) (a : ModeState),
    word0 sw false mode a = (word0 sw true mode { a with health := false } &&& ~~~(1#32 <<< 3)) ^^^ 0x80000000#32)

/-- 42_frame_serializer.md section 4 (the table of the output words): every bit of `bits_b0` and `bits_b1`,
unlisted positions 0, and the swing flag for any SWING_SET. -/
def Obligations.OutputWordsBitByBit : Prop :=
  ∀ (sw : List (BitVec 4)) (s : State) (m : Mode), s.mode = modeOrdinal m →
    let b0 := (s.bits sw).b0
    let b1 := (s.bits sw).b1
    let a := s.ms.get m
    let t := a.temp.extractLsb' 0 4
    let chk := BitVec.ofNat 4 (a.temp.toNat + s.mode.toNat + 2)
    (∀ i, i < 3 → b0.getLsbD (31 - i) = s.mode.getLsbD i) ∧ b0.getLsbD 28 = s.power ∧
    (∀ i, i < 2 → b0.getLsbD (27 - i) = a.fan.getLsbD i) ∧ (b0.getLsbD 25 = true ↔ a.louver ∈ sw) ∧
    b0.getLsbD 24 = false ∧ (∀ i, i < 4 → b0.getLsbD (23 - i) = t.getLsbD i) ∧
    (∀ i, 12 ≤ i → i ≤ 19 → b0.getLsbD i = false) ∧ b0.getLsbD 11 = a.turbo ∧ b0.getLsbD 10 = a.display ∧
    b0.getLsbD 9 = (a.health && s.power) ∧ b0.getLsbD 8 = a.xfan ∧ (∀ i, 4 ≤ i → i ≤ 7 → b0.getLsbD i = false) ∧
    b0.getLsbD 3 = true ∧ b0.getLsbD 2 = false ∧ b0.getLsbD 1 = true ∧ b0.getLsbD 0 = !s.power ∧
    (∀ i, i < 4 → b1.getLsbD (31 - i) = a.louver.getLsbD i) ∧ (∀ i, 24 ≤ i → i ≤ 27 → b1.getLsbD i = false) ∧
    (∀ i, i < 2 → b1.getLsbD (23 - i) = a.dispmode.getLsbD i) ∧ (∀ i, 4 ≤ i → i ≤ 21 → b1.getLsbD i = false) ∧
    (∀ i, i < 4 → b1.getLsbD (3 - i) = chk.getLsbD i)

/-- 42_frame_serializer.md section 5 (power-off toggling): two states that differ in POWER alone differ in
word 0 at bits 31 and 3, at bit 22 exactly when the active record's health is on, and nowhere else. -/
def Obligations.PowerChangesThreeBitsAtMost : Prop :=
  ∀ (sw : List (BitVec 4)) (s : State) (m : Mode), s.mode = modeOrdinal m →
    ({ s with power := true } : State).p0 sw ^^^ ({ s with power := false } : State).p0 sw =
      (if (s.ms.get m).health then 0x80400008#32 else 0x80000008#32) ∧
    ({ s with power := true } : State).p1 = ({ s with power := false } : State).p1

/-- 42_frame_serializer.md sections 1 and 5 (locality): a write to a record that is not active, to BUSY, IDX,
ERR, ERRC or the coming inputs changes neither output word. -/
def Obligations.FrameIgnoresInactiveRecords : Prop :=
  ∀ (sw : List (BitVec 4)) (s : State) (m n : Mode) (r : ModeState) (b e : Bool) (i : BitVec 8) (c : BitVec 2)
    (l : List PortIn), s.mode = modeOrdinal m → n ≠ m →
    ({ s with ms := s.ms.set n r, busy := b, idx := i, err := e, errc := c, inputs := l } : State).bits sw = s.bits sw

/-- 42_frame_serializer.md section 5 (injectivity): two states with temperatures in 16..31 and the same frame
agree on POWER, MODE and the settings the frame carries, and on health if power is on. -/
def Obligations.FrameDeterminesTheSettingsItCarries : Prop :=
  ∀ (sw : List (BitVec 4)) (s t : State) (m n : Mode), s.mode = modeOrdinal m → t.mode = modeOrdinal n →
    16 ≤ (s.ms.get m).temp.toNat → (s.ms.get m).temp.toNat ≤ 31 →
    16 ≤ (t.ms.get n).temp.toNat → (t.ms.get n).temp.toNat ≤ 31 → s.bits sw = t.bits sw →
    m = n ∧ s.power = t.power ∧ (s.ms.get m).fan = (t.ms.get n).fan ∧ (s.ms.get m).louver = (t.ms.get n).louver ∧
    (s.ms.get m).temp = (t.ms.get n).temp ∧ (s.ms.get m).turbo = (t.ms.get n).turbo ∧
    (s.ms.get m).display = (t.ms.get n).display ∧ (s.ms.get m).xfan = (t.ms.get n).xfan ∧
    (s.ms.get m).dispmode = (t.ms.get n).dispmode ∧ (s.power = true → (s.ms.get m).health = (t.ms.get n).health)

/-! ### The bit-reversal engine -/

/-- R170, R172: bit `i` of `rev32 x` is bit `31 - i` of `x`; it is its own inverse and a bijection. -/
def Obligations.RevReversesAndIsAnInvolution : Prop :=
  (∀ (x : Word) (i : Nat), i < 32 → (rev32 x).getLsbD i = x.getLsbD (31 - i)) ∧ (∀ x : Word, rev32 (rev32 x) = x) ∧
  Function.Bijective rev32

/-- 43_bit_reversal.md (the named algorithm, whose masks the spec took from general knowledge): the five
mask-and-shift steps compute `rev32`. -/
def Obligations.MaskAndShiftComputesRev : Prop := ∀ x : Word, rev32BySwaps x = rev32 x

/-! ### The timing-table expander -/

/-- R186: the fixed structure of 70 pairs and 140 values, whatever the two words. -/
def Obligations.TimingsHaveTheFixedStructure : Prop :=
  ∀ b : Frame,
    (symbols b).length = 70 ∧ (symbols b)[0]? = some .h ∧
    (∀ k, 1 ≤ k → k ≤ 32 → (symbols b)[k]? = some (if b.b0.getLsbD (32 - k) then .o else .z)) ∧
    (symbols b)[33]? = some .z ∧ (symbols b)[34]? = some .o ∧ (symbols b)[35]? = some .z ∧ (symbols b)[36]? = some .g ∧
    (∀ k, 37 ≤ k → k ≤ 68 → (symbols b)[k]? = some (if b.b1.getLsbD (68 - k) then .o else .z)) ∧
    (symbols b)[69]? = some .z ∧ (timings b).length = 140 ∧
    (∀ k c, (symbols b)[k]? = some c →
      (timings b)[2 * k]? = some (timingTable c).mark ∧ (timings b)[2 * k + 1]? = some (timingTable c).space)

/-- 44_timing_expander.md section 2 (item by index): item `i` is the entry of the sequence at position `i`, for
each of the 140 positions, and no other position has one. -/
def Obligations.ItemByIndexIsTheSequence : Prop := ∀ (b : Frame) (i : Nat), itemAt b i = (timings b)[i]?

/-- 44_timing_expander.md section 4: marks are 632 or 8948 and spaces one of four values; the fixed items; and
in the sequence of a state items 58 to 65, the last of them by POWER. -/
def Obligations.FixedItemsAndAlphabet : Prop :=
  (∀ (b : Frame) (i : Nat) (v : Tick), itemAt b i = some v →
    if i % 2 = 0 then v ∈ [632#16, 8948#16] else v ∈ [527#16, 1606#16, 4422#16, 19816#16]) ∧
  (∀ b : Frame, itemAt b 0 = some 8948 ∧ itemAt b 1 = some 4422 ∧
    (List.range 8).map (fun j => itemAt b (66 + j)) =
      [some 632, some 527, some 632, some 1606, some 632, some 527, some 632, some 19816] ∧
    itemAt b 138 = some 632 ∧ itemAt b 139 = some 527) ∧
  (∀ (s : State) (sw : List (BitVec 4)), (List.range 8).map (fun j => itemAt (s.bits sw) (58 + j)) =
    [some 632, some 1606, some 632, some 527, some 632, some 1606, some 632, some (if s.power then 527 else 1606)])

/-- 44_timing_expander.md section 4 (decoding): the sequence determines both words. -/
def Obligations.TimingsDetermineTheFrame : Prop := ∀ a b : Frame, timings a = timings b → a = b

/-- 44_timing_expander.md section 4 (total duration): the sum of the 140 values, by the number of 1 bits. -/
def Obligations.TotalDurationByOnesCount : Prop :=
  ∀ b : Frame, ((timings b).map BitVec.toNat).sum = 113709 + 1079 * (onesCount b.b0 + onesCount b.b1)

/-! ### The stream -/

/-- R189, R190: what the stream outputs show. -/
def Obligations.StreamOutputsShowTheOfferedItem : Prop :=
  ∀ (s : State) (rst : Bool) (sw : List (BitVec 4)),
    (portOut s rst sw).timValid = (s.busy && !rst) ∧
    (s.busy = false →
      (portOut s rst sw).timData = 0 ∧ (portOut s rst sw).timMark = false ∧ (portOut s rst sw).timLast = false) ∧
    (s.busy = true → s.idx.toNat ≤ 139 → itemAt (s.bits sw) s.idx.toNat = some (portOut s rst sw).timData) ∧
    (s.busy = true → ((portOut s rst sw).timMark = true ↔ s.idx.toNat % 2 = 0) ∧
      ((portOut s rst sw).timLast = true ↔ s.idx.toNat = 139))

/-- R192, and R191 for a single transfer: a transfer takes the offered item and advances IDX; the one at 139
returns BUSY and IDX to 0, and from the next cycle `cmd_ready` is 1 (without a reset) and `tim_valid` 0. -/
def Obligations.TransferAdvancesAndTheLastOneEnds : Prop :=
  ∀ (s : State) (p : PortIn) (rest : List PortIn) (sw : List (BitVec 4)), s.inputs = p :: rest → p.rst = false →
    s.busy = true → p.timReady = true → s.idx.toNat ≤ 139 →
    transferredItem p s sw = itemAt (s.bits sw) s.idx.toNat ∧
    (s.idx.toNat < 139 → step s = .next { s with idx := s.idx + 1, inputs := rest }) ∧
    (s.idx.toNat = 139 → ∃ t, step s = .next t ∧ t = { s with busy := false, idx := 0, inputs := rest } ∧
      (portOut t false sw).cmdReady = true ∧ ∀ rst, (portOut t rst sw).timValid = false)

/-- R193: a consumer that does not raise `tim_ready` holds the block, and the offered item, through any number
of edges without a reset; no command is accepted meanwhile. -/
def Obligations.StalledConsumerHoldsTheBlock : Prop :=
  ∀ (s : State) (stall rest : List PortIn) (sw : List (BitVec 4)), s.busy = true →
    (∀ p ∈ stall, p.rst = false ∧ p.timReady = false) → s.inputs = stall ++ rest →
    ∃ t, runSteps stall.length s = .next t ∧ t = { s with inputs := rest } ∧
      (∀ rst, portOut t rst sw = portOut s rst sw) ∧ delivered sw stall.length s = []

/-- 44_timing_expander.md section 3 and 70_reset_and_hazards.md section 3: from any idle state, EMIT followed by
any cycles without a reset of which 140 raise `tim_ready`, the last being one, delivers exactly `Timings` of the
state at the EMIT, whatever commands the host offers meanwhile, and leaves the block idle and otherwise unchanged. -/
def Obligations.EmitDeliversTheWholeSequence : Prop :=
  ∀ (sw : List (BitVec 4)) (s : State) (e last : PortIn) (front rest : List PortIn),
    s.busy = false → s.inputs = e :: (front ++ last :: rest) →
    e.rst = false → e.cmdValid = true → e.cmd = 0xD0000000#32 →
    (∀ p ∈ front, p.rst = false) → last.rst = false → last.timReady = true →
    front.countP (fun p => p.timReady) = 139 →
    runSteps (front.length + 2) s = .next { s with busy := false, idx := 0, inputs := rest } ∧
    delivered sw (front.length + 2) s = timings (s.bits sw)
end

