-- ==== Sys2Proof/Laws/Encoding.lean ====
section
/-! SUPPORT. The fields of a word in formats Z and S, and a word from its fields. -/

namespace Sys2Proof

/-- A bit of two fields side by side, at the width of a command word. -/
theorem getLsbD_formatZ (op : BitVec 4) (x : BitVec 28) (i : Nat) :
    BitVec.getLsbD (w := 32) (op ++ x) i = if i < 28 then x.getLsbD i else op.getLsbD (i - 28) := by
  refine BitVec.getLsbD_append.trans ?_
  by_cases h : i < 28 <;> simp [h]

/-- A bit of three fields side by side, at the width of a command word. -/
theorem getLsbD_formatS (op : BitVec 4) (x : BitVec 20) (y : BitVec 8) (i : Nat) :
    BitVec.getLsbD (w := 32) (op ++ x ++ y) i =
      if i < 8 then y.getLsbD i else if i < 28 then x.getLsbD (i - 8) else op.getLsbD (i - 28) := by
  refine BitVec.getLsbD_append.trans ?_
  rw [BitVec.getLsbD_append]
  by_cases h : i < 8
  · simp [h]
  · by_cases h2 : i < 28
    · simp [h, h2, show i - 8 < 20 by omega]
    · simp [h, h2, show ¬ i - 8 < 20 by omega, show i - 8 - 20 = i - 28 by omega]

/-- A bit of the five fields of format M side by side (R85). -/
theorem getLsbD_formatM (op : BitVec 4) (a : BitVec 1) (b : BitVec 3) (c : BitVec 4) (d : BitVec 20) (i : Nat) :
    BitVec.getLsbD (w := 32) (op ++ a ++ b ++ c ++ d) i =
      if i < 20 then d.getLsbD i else if i < 24 then c.getLsbD (i - 20) else if i < 27 then b.getLsbD (i - 24)
      else if i < 28 then a.getLsbD (i - 27) else op.getLsbD (i - 28) := by
  refine BitVec.getLsbD_append.trans ?_
  rw [BitVec.getLsbD_append, BitVec.getLsbD_append, BitVec.getLsbD_append]
  by_cases h1 : i < 20
  · simp [h1]
  by_cases h2 : i < 24
  · simp [h1, h2, show i - 20 < 4 by omega]
  by_cases h3 : i < 27
  · simp [h1, h2, h3, show ¬ i - 20 < 4 by omega, show i - 20 - 4 = i - 24 by omega, show i - 24 < 3 by omega]
  by_cases h4 : i < 28
  · simp [h1, h2, h3, h4, show ¬ i - 20 < 4 by omega, show ¬ i - 20 - 4 < 3 by omega, show i - 20 - 4 - 3 = i - 27 by omega,
      show i - 27 < 1 by omega]
  · simp [h1, h2, h3, h4, show ¬ i - 20 < 4 by omega, show ¬ i - 20 - 4 < 3 by omega,
      show ¬ i - 20 - 4 - 3 < 1 by omega, show i - 20 - 4 - 3 - 1 = i - 28 by omega]

@[simp] theorem opcodeField_formatM (op : BitVec 4) (a : BitVec 1) (b : BitVec 3) (c : BitVec 4) (d : BitVec 20) :
    opcodeField (op ++ a ++ b ++ c ++ d) = op := by
  ext i hi
  rw [opcodeField, BitVec.getElem_extractLsb', getLsbD_formatM, if_neg (by omega), if_neg (by omega), if_neg (by omega),
    if_neg (by omega), Nat.add_sub_cancel_left, BitVec.getLsbD_eq_getElem hi]

@[simp] theorem opcodeField_formatZ (op : BitVec 4) (x : BitVec 28) : opcodeField (op ++ x) = op := by
  ext i hi
  rw [opcodeField, BitVec.getElem_extractLsb', getLsbD_formatZ, if_neg (by omega), Nat.add_sub_cancel_left,
    BitVec.getLsbD_eq_getElem hi]

@[simp] theorem lowField_formatZ (op : BitVec 4) (x : BitVec 28) : lowField (op ++ x) = x := by
  ext i hi
  rw [lowField, BitVec.getElem_extractLsb', getLsbD_formatZ, if_pos (by omega), Nat.zero_add, BitVec.getLsbD_eq_getElem hi]

@[simp] theorem opcodeField_formatS (op : BitVec 4) (x : BitVec 20) (y : BitVec 8) : opcodeField (op ++ x ++ y) = op := by
  ext i hi
  rw [opcodeField, BitVec.getElem_extractLsb', getLsbD_formatS, if_neg (by omega), if_neg (by omega),
    Nat.add_sub_cancel_left, BitVec.getLsbD_eq_getElem hi]

@[simp] theorem reservedS_formatS (op : BitVec 4) (x : BitVec 20) (y : BitVec 8) : reservedS (op ++ x ++ y) = x := by
  ext i hi
  rw [reservedS, BitVec.getElem_extractLsb', getLsbD_formatS, if_neg (by omega), if_pos (by omega),
    Nat.add_sub_cancel_left, BitVec.getLsbD_eq_getElem hi]

@[simp] theorem immField_formatS (op : BitVec 4) (x : BitVec 20) (y : BitVec 8) : immField (op ++ x ++ y) = y := by
  ext i hi
  rw [immField, BitVec.getElem_extractLsb', getLsbD_formatS, if_pos (by omega), Nat.zero_add, BitVec.getLsbD_eq_getElem hi]

/-- A word in format Z from its two fields. -/
theorem formatZ_eq (w : Word) : (opcodeField w ++ lowField w : BitVec (4 + 28)) = w := by
  ext i hi
  simp only [opcodeField, lowField, BitVec.getElem_append, BitVec.getElem_extractLsb', Nat.zero_add]
  split
  · rfl
  · next h => rw [show 28 + (i - 28) = i from by omega]; rfl

/-- A word in format S from its three fields. -/
theorem formatS_eq (w : Word) : (opcodeField w ++ reservedS w ++ immField w : BitVec (4 + 20 + 8)) = w := by
  ext i hi
  simp only [opcodeField, reservedS, immField, BitVec.getElem_append, BitVec.getElem_extractLsb', Nat.zero_add]
  split
  · rfl
  · split
    · next h _ => rw [show 8 + (i - 8) = i from by omega]; rfl
    · next h h' => rw [show 28 + (i - 8 - 20) = i from by omega]; rfl

/-- A word in format M from its five fields. -/
theorem formatM_eq (w : Word) :
    (opcodeField w ++ w.extractLsb' 27 1 ++ w.extractLsb' 24 3 ++ w.extractLsb' 20 4 ++ w.extractLsb' 0 20
      : BitVec (4 + 1 + 3 + 4 + 20)) = w := by
  apply BitVec.eq_of_getLsbD_eq
  intro i hi
  refine (getLsbD_formatM _ _ _ _ _ i).trans ?_
  simp only [opcodeField, BitVec.getLsbD_extractLsb']
  split
  · simp [*]
  split
  · simp [show i - 20 < 4 by omega, show 20 + (i - 20) = i by omega]
  split
  · simp [show i - 24 < 3 by omega, show 24 + (i - 24) = i by omega]
  split
  · simp [show i = 27 by omega]
  · simp [show i - 28 < 4 by omega, show 28 + (i - 28) = i by omega]

end Sys2Proof
end

