-- ==== Sys2Proof/Laws/State.lean ====
section
/-! SUPPORT. One lemma per field per register write: a write changes its own field and keeps the others. -/

namespace Sys2Proof.Machine

@[simp] theorem State.withMs_ms (s : State) (f : ModeFile) : (s.withMs f).ms = f := rfl
@[simp] theorem State.withMs_power (s : State) (f : ModeFile) : (s.withMs f).power = s.power := rfl
@[simp] theorem State.withMs_mode (s : State) (f : ModeFile) : (s.withMs f).mode = s.mode := rfl
@[simp] theorem State.withMs_busy (s : State) (f : ModeFile) : (s.withMs f).busy = s.busy := rfl
@[simp] theorem State.withMs_idx (s : State) (f : ModeFile) : (s.withMs f).idx = s.idx := rfl
@[simp] theorem State.withMs_err (s : State) (f : ModeFile) : (s.withMs f).err = s.err := rfl
@[simp] theorem State.withMs_errc (s : State) (f : ModeFile) : (s.withMs f).errc = s.errc := rfl
@[simp] theorem State.withMs_inputs (s : State) (f : ModeFile) : (s.withMs f).inputs = s.inputs := rfl

@[simp] theorem State.withPower_ms (s : State) (v : Bool) : (s.withPower v).ms = s.ms := rfl
@[simp] theorem State.withPower_power (s : State) (v : Bool) : (s.withPower v).power = v := rfl
@[simp] theorem State.withPower_mode (s : State) (v : Bool) : (s.withPower v).mode = s.mode := rfl
@[simp] theorem State.withPower_busy (s : State) (v : Bool) : (s.withPower v).busy = s.busy := rfl
@[simp] theorem State.withPower_idx (s : State) (v : Bool) : (s.withPower v).idx = s.idx := rfl
@[simp] theorem State.withPower_err (s : State) (v : Bool) : (s.withPower v).err = s.err := rfl
@[simp] theorem State.withPower_errc (s : State) (v : Bool) : (s.withPower v).errc = s.errc := rfl
@[simp] theorem State.withPower_inputs (s : State) (v : Bool) : (s.withPower v).inputs = s.inputs := rfl

@[simp] theorem State.withMode_ms (s : State) (v : BitVec 3) : (s.withMode v).ms = s.ms := rfl
@[simp] theorem State.withMode_power (s : State) (v : BitVec 3) : (s.withMode v).power = s.power := rfl
@[simp] theorem State.withMode_mode (s : State) (v : BitVec 3) : (s.withMode v).mode = v := rfl
@[simp] theorem State.withMode_busy (s : State) (v : BitVec 3) : (s.withMode v).busy = s.busy := rfl
@[simp] theorem State.withMode_idx (s : State) (v : BitVec 3) : (s.withMode v).idx = s.idx := rfl
@[simp] theorem State.withMode_err (s : State) (v : BitVec 3) : (s.withMode v).err = s.err := rfl
@[simp] theorem State.withMode_errc (s : State) (v : BitVec 3) : (s.withMode v).errc = s.errc := rfl
@[simp] theorem State.withMode_inputs (s : State) (v : BitVec 3) : (s.withMode v).inputs = s.inputs := rfl

@[simp] theorem State.withStream_ms (s : State) (b : Bool) (i : BitVec 8) : (s.withStream b i).ms = s.ms := rfl
@[simp] theorem State.withStream_power (s : State) (b : Bool) (i : BitVec 8) : (s.withStream b i).power = s.power := rfl
@[simp] theorem State.withStream_mode (s : State) (b : Bool) (i : BitVec 8) : (s.withStream b i).mode = s.mode := rfl
@[simp] theorem State.withStream_busy (s : State) (b : Bool) (i : BitVec 8) : (s.withStream b i).busy = b := rfl
@[simp] theorem State.withStream_idx (s : State) (b : Bool) (i : BitVec 8) : (s.withStream b i).idx = i := rfl
@[simp] theorem State.withStream_err (s : State) (b : Bool) (i : BitVec 8) : (s.withStream b i).err = s.err := rfl
@[simp] theorem State.withStream_errc (s : State) (b : Bool) (i : BitVec 8) : (s.withStream b i).errc = s.errc := rfl
@[simp] theorem State.withStream_inputs (s : State) (b : Bool) (i : BitVec 8) : (s.withStream b i).inputs = s.inputs := rfl

@[simp] theorem State.withErr_ms (s : State) (e : Bool) (c : BitVec 2) : (s.withErr e c).ms = s.ms := rfl
@[simp] theorem State.withErr_power (s : State) (e : Bool) (c : BitVec 2) : (s.withErr e c).power = s.power := rfl
@[simp] theorem State.withErr_mode (s : State) (e : Bool) (c : BitVec 2) : (s.withErr e c).mode = s.mode := rfl
@[simp] theorem State.withErr_busy (s : State) (e : Bool) (c : BitVec 2) : (s.withErr e c).busy = s.busy := rfl
@[simp] theorem State.withErr_idx (s : State) (e : Bool) (c : BitVec 2) : (s.withErr e c).idx = s.idx := rfl
@[simp] theorem State.withErr_err (s : State) (e : Bool) (c : BitVec 2) : (s.withErr e c).err = e := rfl
@[simp] theorem State.withErr_errc (s : State) (e : Bool) (c : BitVec 2) : (s.withErr e c).errc = c := rfl
@[simp] theorem State.withErr_inputs (s : State) (e : Bool) (c : BitVec 2) : (s.withErr e c).inputs = s.inputs := rfl

@[simp] theorem State.withInputs_ms (s : State) (l : List PortIn) : (s.withInputs l).ms = s.ms := rfl
@[simp] theorem State.withInputs_power (s : State) (l : List PortIn) : (s.withInputs l).power = s.power := rfl
@[simp] theorem State.withInputs_mode (s : State) (l : List PortIn) : (s.withInputs l).mode = s.mode := rfl
@[simp] theorem State.withInputs_busy (s : State) (l : List PortIn) : (s.withInputs l).busy = s.busy := rfl
@[simp] theorem State.withInputs_idx (s : State) (l : List PortIn) : (s.withInputs l).idx = s.idx := rfl
@[simp] theorem State.withInputs_err (s : State) (l : List PortIn) : (s.withInputs l).err = s.err := rfl
@[simp] theorem State.withInputs_errc (s : State) (l : List PortIn) : (s.withInputs l).errc = s.errc := rfl
@[simp] theorem State.withInputs_inputs (s : State) (l : List PortIn) : (s.withInputs l).inputs = l := rfl

/-- The reset of the block keeps the host's coming inputs and nothing else. -/
@[simp] theorem resetBlock_inputs (s : State) : (resetBlock s).inputs = s.inputs := rfl
@[simp] theorem resetBlock_ms (s : State) : (resetBlock s).ms = State.reset.ms := rfl
@[simp] theorem resetBlock_power (s : State) : (resetBlock s).power = State.reset.power := rfl
@[simp] theorem resetBlock_mode (s : State) : (resetBlock s).mode = State.reset.mode := rfl
@[simp] theorem resetBlock_busy (s : State) : (resetBlock s).busy = State.reset.busy := rfl
@[simp] theorem resetBlock_idx (s : State) : (resetBlock s).idx = State.reset.idx := rfl
@[simp] theorem resetBlock_err (s : State) : (resetBlock s).err = State.reset.err := rfl
@[simp] theorem resetBlock_errc (s : State) : (resetBlock s).errc = State.reset.errc := rfl

@[simp] theorem takeFault_ms (c : Cause) (s : State) : (takeFault c s).ms = s.ms := rfl
@[simp] theorem takeFault_power (c : Cause) (s : State) : (takeFault c s).power = s.power := rfl
@[simp] theorem takeFault_mode (c : Cause) (s : State) : (takeFault c s).mode = s.mode := rfl
@[simp] theorem takeFault_busy (c : Cause) (s : State) : (takeFault c s).busy = s.busy := rfl
@[simp] theorem takeFault_idx (c : Cause) (s : State) : (takeFault c s).idx = s.idx := rfl
@[simp] theorem takeFault_err (c : Cause) (s : State) : (takeFault c s).err = true := rfl
@[simp] theorem takeFault_errc (c : Cause) (s : State) : (takeFault c s).errc = if s.err then s.errc else causeCode c := rfl
@[simp] theorem takeFault_inputs (c : Cause) (s : State) : (takeFault c s).inputs = s.inputs := rfl

end Sys2Proof.Machine
end

