-- ==== Sys2Proof/Laws/Ops.lean ====
section
/-! SUPPORT. What the shared operations do: indexing the Mode State file, writing the active record, and the
check of reserved bits. -/

namespace Sys2Proof.Machine

@[simp] theorem modeOfOrdinal_modeOrdinal (m : Mode) : modeOfOrdinal (modeOrdinal m) = some m := by
  cases m <;> rfl

theorem modeOfOrdinal_eq_some {v : BitVec 3} {m : Mode} : modeOfOrdinal v = some m ↔ v = modeOrdinal m := by
  revert v
  cases m <;> decide

theorem modeOfOrdinal_eq_none {v : BitVec 3} : modeOfOrdinal v = none ↔ 4 < v.toNat := by
  revert v
  decide

theorem modeOrdinal_injective {m n : Mode} : modeOrdinal m = modeOrdinal n ↔ m = n := by
  cases m <;> cases n <;> decide

theorem modeOrdinal_le (m : Mode) : (modeOrdinal m).toNat ≤ 4 := by
  cases m <;> decide

/-- A register MODE in range holds the ordinal of some mode (R34). -/
theorem exists_mode_of_le {v : BitVec 3} (h : v.toNat ≤ 4) : ∃ m, v = modeOrdinal m := by
  cases hv : modeOfOrdinal v with
  | none => exact absurd (modeOfOrdinal_eq_none.mp hv) (by omega)
  | some m => exact ⟨m, modeOfOrdinal_eq_some.mp hv⟩

namespace ModeFile

@[simp] theorem get_set_same (f : ModeFile) (m : Mode) (r : ModeState) : (f.set m r).get m = r := by
  cases m <;> rfl

theorem get_set_other (f : ModeFile) {m n : Mode} (r : ModeState) (h : n ≠ m) : (f.set m r).get n = f.get n := by
  cases m <;> cases n <;> first | rfl | exact absurd rfl h

@[simp] theorem get_mapAll (f : ModeFile) (g : ModeState → ModeState) (m : Mode) : (f.mapAll g).get m = g (f.get m) := by
  cases m <;> rfl

@[simp] theorem get_defaultFile (m : Mode) : defaultFile.get m = defaultRecord m := by
  cases m <;> rfl

@[simp] theorem set_set (f : ModeFile) (m : Mode) (r q : ModeState) : (f.set m r).set m q = f.set m q := by
  cases m <;> rfl

theorem set_comm (f : ModeFile) {m n : Mode} (r q : ModeState) (h : m ≠ n) :
    (f.set m r).set n q = (f.set n q).set m r := by
  cases m <;> cases n <;> first | rfl | exact absurd rfl h

/-- Two files with equal records are equal (R21). -/
theorem ext_get {f g : ModeFile} (h : ∀ m, f.get m = g.get m) : f = g :=
  ModeFile.ext (h .auto) (h .cool) (h .dry) (h .fan) (h .heat)

end ModeFile

theorem activeRecord_of_ordinal {s : State} {m : Mode} (h : s.mode = modeOrdinal m) : s.activeRecord = s.ms.get m := by
  simp [State.activeRecord, h]

theorem writeActive_of_ordinal {s : State} {m : Mode} (g : ModeState → ModeState) (h : s.mode = modeOrdinal m) :
    writeActive g s = .next (s.withMs (s.ms.set m (g (s.ms.get m)))) := by
  simp [writeActive, h]

/-- All that writing the active record can answer with. -/
theorem writeActive_next {g : ModeState → ModeState} {s t : State} (h : writeActive g s = .next t) :
    ∃ m, s.mode = modeOrdinal m ∧ t = s.withMs (s.ms.set m (g (s.ms.get m))) := by
  unfold writeActive at h
  split at h
  · next m hm => exact ⟨m, modeOfOrdinal_eq_some.mp hm, (Host.Outcome.next.inj h).symm⟩
  · cases h

/-- All that the check of reserved bits can answer with. -/
theorem unlessReserved_next {b : Bool} {s t : State} {effect : Result} (h : unlessReserved b s effect = .next t) :
    (b = true ∧ effect = .next t) ∨ (b = false ∧ t = takeFault .reservedBits s) := by
  cases b
  · exact .inr ⟨rfl, (Host.Outcome.next.inj h).symm⟩
  · exact .inl ⟨rfl, h⟩

@[simp] theorem unlessReserved_true (s : State) (effect : Result) : unlessReserved true s effect = effect := rfl

@[simp] theorem unlessReserved_false (s : State) (effect : Result) :
    unlessReserved false s effect = .next (takeFault .reservedBits s) := rfl

end Sys2Proof.Machine
end

