-- ==== Sys2Proof/Laws/Exec.lean ====
section
/-! SUPPORT. What one command and one clock edge can do, said once: the later proofs cite these instead of
unfolding `exec` and `step`. -/

namespace Sys2Proof.Machine

/-- The change a per-mode setter makes to the active record, and none for the other commands (R123 to R132). -/
def fieldWrite : Instr → Option (ModeState → ModeState)
  | .setFan _ imm => some fun r => { r with fan := immTwo imm }
  | .setLouver _ imm => some fun r => { r with louver := immFour imm }
  | .setTemp _ imm => some fun r => { r with temp := immEight imm }
  | .setTurbo _ imm => some fun r => { r with turbo := immBit imm }
  | .setDisplay _ imm => some fun r => { r with display := immBit imm }
  | .setXfan _ imm => some fun r => { r with xfan := immBit imm }
  | .setDispmode _ imm => some fun r => { r with dispmode := immTwo imm }
  | _ => none

/-- A per-mode setter is a write of the active record behind the check of its reserved bits. -/
theorem exec_fieldWrite {i : Instr} {g : ModeState → ModeState} (h : fieldWrite i = some g) (s : State) :
    exec i s = unlessReserved i.wellFormed s (writeActive g s) := by
  cases i <;> simp only [fieldWrite, Option.some.injEq, reduceCtorEq] at h <;> subst h <;> rfl

/-- Every next state of an accepted command, by what the command did. -/
inductive CommandEffect (i : Instr) (s : State) : State → Prop where
  /-- It faulted (R213). -/
  | faulted (c : Cause) : CommandEffect i s (takeFault c s)
  /-- NOP (R114). -/
  | nothing (h : i = .nop 0) : CommandEffect i s s
  /-- INIT (R111). -/
  | constructed (h : i = .init 0) : CommandEffect i s (((s.withMs defaultFile).withPower false).withMode 0)
  /-- SEED (R112). -/
  | seeded (m : Mode) (ms : BitVec 20) (h : i = .seed 0 (modeOrdinal m) 0 ms) :
      CommandEffect i s (s.withMs (s.ms.set m (unpack ms)))
  /-- SET_POWER (R121). -/
  | powered (imm : BitVec 8) (h : i = .setPower 0 imm) : CommandEffect i s (s.withPower (immBit imm))
  /-- SET_MODE (R122). -/
  | selected (imm : BitVec 8) (v : BitVec 3) (h : i = .setMode 0 imm) (hv : immMode imm = some v) :
      CommandEffect i s (s.withMode v)
  /-- A per-mode setter (R123). -/
  | wrote (g : ModeState → ModeState) (m : Mode) (hg : fieldWrite i = some g) (hw : i.wellFormed = true)
      (hm : s.mode = modeOrdinal m) : CommandEffect i s (s.withMs (s.ms.set m (g (s.ms.get m))))
  /-- SET_HEALTH (R130). -/
  | broadcast (imm : BitVec 8) (h : i = .setHealth 0 imm) :
      CommandEffect i s (s.withMs (s.ms.mapAll fun r => { r with health := immBit imm }))
  /-- EMIT (R188). -/
  | started (h : i = .emit 0) : CommandEffect i s (startStream s)

theorem commandEffect_of_fieldWrite {i : Instr} {g : ModeState → ModeState} {s t : State} (hg : fieldWrite i = some g)
    (h : exec i s = .next t) : CommandEffect i s t := by
  rw [exec_fieldWrite hg] at h
  obtain ⟨hw, h⟩ | ⟨-, rfl⟩ := unlessReserved_next h
  · obtain ⟨m, hm, rfl⟩ := writeActive_next h
    exact .wrote g m hg hw hm
  · exact .faulted _

/-- All that an accepted command can answer with. -/
theorem exec_next {i : Instr} {s t : State} (h : exec i s = .next t) : CommandEffect i s t := by
  cases i with
  | setFan | setLouver | setTemp | setTurbo | setDisplay | setXfan | setDispmode =>
    exact commandEffect_of_fieldWrite rfl h
  | reservedE | reservedF =>
    cases h
    exact .faulted _
  | nop rsv =>
    obtain ⟨hr, h⟩ | ⟨-, rfl⟩ := unlessReserved_next h
    · cases h
      exact .nothing (by simpa using hr)
    · exact .faulted _
  | init rsv =>
    obtain ⟨hr, h⟩ | ⟨-, rfl⟩ := unlessReserved_next h
    · cases h
      exact .constructed (by simpa using hr)
    · exact .faulted _
  | emit rsv =>
    obtain ⟨hr, h⟩ | ⟨-, rfl⟩ := unlessReserved_next h
    · cases h
      exact .started (by simpa using hr)
    · exact .faulted _
  | setPower rsv imm =>
    obtain ⟨hr, h⟩ | ⟨-, rfl⟩ := unlessReserved_next h
    · cases h
      exact .powered imm (by simpa using hr)
    · exact .faulted _
  | setHealth rsv imm =>
    obtain ⟨hr, h⟩ | ⟨-, rfl⟩ := unlessReserved_next h
    · cases h
      exact .broadcast imm (by simpa using hr)
    · exact .faulted _
  | setMode rsv imm =>
    obtain ⟨hr, h⟩ | ⟨-, rfl⟩ := unlessReserved_next h
    · split at h
      · next v hv =>
        cases h
        exact .selected imm v (by simpa using hr) hv
      · cases h
        exact .faulted _
    · exact .faulted _
  | seed rsvHi msel rsvLo ms =>
    obtain ⟨hr, h⟩ | ⟨-, rfl⟩ := unlessReserved_next h
    · split at h
      · next m hm =>
        cases h
        obtain rfl := modeOfOrdinal_eq_some.mp hm
        exact .seeded m ms (by simpa using hr)
      · cases h
        exact .faulted _
    · exact .faulted _

/-- All that a clock edge can answer with: a reset, an accepted command, a transfer, or nothing (R219). -/
theorem clockEdge_next {p : PortIn} {s t : State} (h : clockEdge p s = .next t) :
    (p.rst = true ∧ t = resetBlock s) ∨
    (p.rst = false ∧ p.cmdValid = true ∧ s.busy = false ∧ exec (decodeWord p.cmd) s = .next t) ∨
    (p.rst = false ∧ s.busy = true ∧ p.timReady = true ∧ transfer s = .next t) ∨
    (p.rst = false ∧ (s.busy = false → p.cmdValid = false) ∧ (s.busy = true → p.timReady = false) ∧ t = s) := by
  obtain ⟨rst, valid, cmd, ready⟩ := p
  cases rst <;> cases valid <;> cases ready <;> cases hb : s.busy <;>
    simp_all [clockEdge, commandAccepted, itemTransferred, cmdReady, timValid]

/-- All that a transfer can answer with (R191, R192). -/
theorem transfer_next {s t : State} (h : transfer s = .next t) :
    (s.idx.toNat < 139 ∧ t = s.withStream true (s.idx + 1)) ∨ (s.idx.toNat = 139 ∧ t = s.withStream false 0) := by
  unfold transfer lastItem at h
  split at h
  · next h1 =>
    cases h
    exact .inl ⟨h1, rfl⟩
  · split at h
    · next h2 =>
      cases h
      exact .inr ⟨h2, rfl⟩
    · cases h

@[simp] theorem currentInput_cons {s : State} {p : PortIn} {rest : List PortIn} (h : s.inputs = p :: rest) :
    s.currentInput = p := by
  simp [State.currentInput, h]

theorem dropInput_eq (s : State) : s.dropInput = s.withInputs s.inputs.tail := rfl

end Sys2Proof.Machine
end

