-- ==== Sys2Proof/Laws/PerInstr.lean ====
section
/-! SUPPORT. A statement about every command, proved constructor by constructor: the opcode its word carries
in bits 31..28 (R82, R88). -/

namespace Sys2Proof.Laws.EncodedOpcode

/-- The opcode of each command (R88). -/
def opcodeOf : Instr → BitVec 4
  | .nop _ => 0x0
  | .init _ => 0x1
  | .seed _ _ _ _ => 0x2
  | .setPower _ _ => 0x3
  | .setMode _ _ => 0x4
  | .setFan _ _ => 0x5
  | .setLouver _ _ => 0x6
  | .setTemp _ _ => 0x7
  | .setTurbo _ _ => 0x8
  | .setDisplay _ _ => 0x9
  | .setHealth _ _ => 0xA
  | .setXfan _ _ => 0xB
  | .setDispmode _ _ => 0xC
  | .emit _ => 0xD
  | .reservedE _ => 0xE
  | .reservedF _ => 0xF

/-- The word of a command carries its opcode. -/
def Statement (i : Instr) : Prop := opcodeField (encode i) = opcodeOf i

theorem nop (rsv : BitVec 28) : Statement (.nop rsv) := opcodeField_formatZ _ _
theorem init (rsv : BitVec 28) : Statement (.init rsv) := opcodeField_formatZ _ _
theorem seed (rsvHi : BitVec 1) (msel : BitVec 3) (rsvLo : BitVec 4) (ms : BitVec 20) :
    Statement (.seed rsvHi msel rsvLo ms) := opcodeField_formatM _ _ _ _ _
theorem setPower (rsv : BitVec 20) (imm : BitVec 8) : Statement (.setPower rsv imm) := opcodeField_formatS _ _ _
theorem setMode (rsv : BitVec 20) (imm : BitVec 8) : Statement (.setMode rsv imm) := opcodeField_formatS _ _ _
theorem setFan (rsv : BitVec 20) (imm : BitVec 8) : Statement (.setFan rsv imm) := opcodeField_formatS _ _ _
theorem setLouver (rsv : BitVec 20) (imm : BitVec 8) : Statement (.setLouver rsv imm) := opcodeField_formatS _ _ _
theorem setTemp (rsv : BitVec 20) (imm : BitVec 8) : Statement (.setTemp rsv imm) := opcodeField_formatS _ _ _
theorem setTurbo (rsv : BitVec 20) (imm : BitVec 8) : Statement (.setTurbo rsv imm) := opcodeField_formatS _ _ _
theorem setDisplay (rsv : BitVec 20) (imm : BitVec 8) : Statement (.setDisplay rsv imm) := opcodeField_formatS _ _ _
theorem setHealth (rsv : BitVec 20) (imm : BitVec 8) : Statement (.setHealth rsv imm) := opcodeField_formatS _ _ _
theorem setXfan (rsv : BitVec 20) (imm : BitVec 8) : Statement (.setXfan rsv imm) := opcodeField_formatS _ _ _
theorem setDispmode (rsv : BitVec 20) (imm : BitVec 8) : Statement (.setDispmode rsv imm) := opcodeField_formatS _ _ _
theorem emit (rsv : BitVec 28) : Statement (.emit rsv) := opcodeField_formatZ _ _
theorem reservedE (rest : BitVec 28) : Statement (.reservedE rest) := opcodeField_formatZ _ _
theorem reservedF (rest : BitVec 28) : Statement (.reservedF rest) := opcodeField_formatZ _ _

end Sys2Proof.Laws.EncodedOpcode
end

