-- ==== Sys2Proof/Laws/Setters.lean ====
section
/-! SUPPORT. The law of R134 (d) that a view goes on showing what it showed until a later command writes it. -/

namespace Sys2Proof.Machine

/-- A view depends on POWER, MODE and the active record alone (R43). -/
theorem viewOf_congr (f : Setter) {s t : State} (hp : t.power = s.power) (hm : t.mode = s.mode)
    (ha : t.activeRecord = s.activeRecord) (sw sw' : List (BitVec 4)) (rst rst' : Bool) :
    viewOf f (portOut t rst sw) = viewOf f (portOut s rst' sw') := by
  cases f <;> simp [viewOf, portOut, hp, hm, ha]

/-- The active record reads MODE and the records alone. -/
theorem activeRecord_congr {s t : State} (hs : t.ms = s.ms) (hm : t.mode = s.mode) :
    t.activeRecord = s.activeRecord := by
  simp [State.activeRecord, hs, hm]

/-- A command that may not change a view leaves it (R134 b, c, d). -/
theorem view_kept_by_command (f : Setter) {i : Instr} {s t : State} (h : exec i s = .next t)
    (hi : mayChangeView f i = false) (sw sw' : List (BitVec 4)) (rst rst' : Bool) :
    viewOf f (portOut t rst sw) = viewOf f (portOut s rst' sw') := by
  cases exec_next h with
  | faulted | nothing | started => exact viewOf_congr f rfl rfl (activeRecord_congr rfl rfl) sw sw' rst rst'
  | constructed e | seeded m ms e | powered imm e | selected imm v e | broadcast imm e =>
    subst e
    cases f <;>
      simp_all [mayChangeView, setterOf, viewOf, portOut, State.activeRecord] <;>
      split <;> simp
  | wrote g m hg hw hm =>
    cases i <;> simp only [fieldWrite, Option.some.injEq, reduceCtorEq] at hg <;> subst hg <;> cases f <;>
      simp_all [mayChangeView, setterOf, viewOf, portOut, State.activeRecord]

/-- R134 (d): at a step without a reset, the view of a field shows what it showed, unless the step accepts a
command that may write it. -/
theorem view_kept_until_written (f : Setter) {s t : State} (h : step s = .next t)
    (hr : s.currentInput.rst = false)
    (hc : commandAccepted s.currentInput s = true → mayChangeView f (decodeWord s.currentInput.cmd) = false)
    (sw sw' : List (BitVec 4)) (rst rst' : Bool) :
    viewOf f (portOut t rst sw) = viewOf f (portOut s rst' sw') := by
  have kept : viewOf f (portOut s.dropInput rst sw) = viewOf f (portOut s rst' sw') :=
    viewOf_congr f rfl rfl (activeRecord_congr rfl rfl) sw sw' rst rst'
  obtain ⟨h1, -⟩ | ⟨-, hv, hb, h1⟩ | ⟨-, -, -, h1⟩ | ⟨-, -, -, rfl⟩ := clockEdge_next h
  · simp [hr] at h1
  · have hb : s.busy = false := hb
    exact (view_kept_by_command f h1 (hc (by simp [commandAccepted, cmdReady, hr, hv, hb])) sw sw rst rst).trans kept
  · obtain ⟨-, rfl⟩ | ⟨-, rfl⟩ := transfer_next h1 <;> exact kept
  · exact kept

end Sys2Proof.Machine
end

