-- ==== Sys2Proof/Tests/Slice0.lean ====
section
/-! SUPPORT. Tests of the model against the words and values spec/ writes out (95_test_vectors.md, named V and P
in the comments), and a witness for the hypotheses of each statement that has some. -/

namespace Sys2Proof.Tests

open Sys2Proof.Machine

/-! ### Well-formedness: an ill-formed term for each check -/

theorem test_wellFormed_refuses_reserved_bits_z :
    (Instr.nop 1).wellFormed = false ∧ (Instr.init 0x8000000).wellFormed = false ∧ (Instr.emit 0x100).wellFormed = false := by
  decide

theorem test_wellFormed_refuses_reserved_bits_m :
    (Instr.seed 1 0 0 0).wellFormed = false ∧ (Instr.seed 0 0 8 0).wellFormed = false := by decide

theorem test_wellFormed_refuses_reserved_bits_s :
    (Instr.setPower 1 0).wellFormed = false ∧ (Instr.setMode 0x80000 0).wellFormed = false ∧
    (Instr.setFan 1 0).wellFormed = false ∧ (Instr.setLouver 1 0).wellFormed = false ∧
    (Instr.setTemp 1 0).wellFormed = false ∧ (Instr.setTurbo 1 0).wellFormed = false ∧
    (Instr.setDisplay 1 0).wellFormed = false ∧ (Instr.setHealth 1 0).wellFormed = false ∧
    (Instr.setXfan 1 0).wellFormed = false ∧ (Instr.setDispmode 1 0).wellFormed = false := by decide

theorem test_wellFormed_refuses_reserved_opcodes :
    (Instr.reservedE 0).wellFormed = false ∧ (Instr.reservedF 0).wellFormed = false := by decide

theorem test_wellFormed_accepts : (Instr.seed 0 7 0 0xFFFFF).wellFormed = true ∧ (Instr.setMode 0 5).wellFormed = true := by
  decide

/-! ### Decoding: a word of each row, written out from the encodings (V70 to V83, V94, V100 to V111) -/

theorem test_decode_nop : decodeWord 0x00000000#32 = .nop 0 ∧ decodeWord 0x00000001#32 = .nop 1 := by decide
theorem test_decode_init : decodeWord 0x10000000#32 = .init 0 ∧ decodeWord 0x10000001#32 = .init 1 := by decide
theorem test_decode_seed :
    decodeWord 0x210285C9#32 = .seed 0 1 0 0x285C9 ∧ decodeWord 0x20100000#32 = .seed 0 0 1 0 ∧
    decodeWord 0x2F000000#32 = .seed 1 7 0 0 := by decide
theorem test_decode_setPower : decodeWord 0x30000001#32 = .setPower 0 1 ∧ decodeWord 0x30000100#32 = .setPower 1 0 := by decide
theorem test_decode_setMode : decodeWord 0x40000004#32 = .setMode 0 4 ∧ decodeWord 0x41000007#32 = .setMode 0x10000 7 := by decide
theorem test_decode_setFan : decodeWord 0x50000003#32 = .setFan 0 3 := by decide
theorem test_decode_setLouver : decodeWord 0x6000000B#32 = .setLouver 0 11 := by decide
theorem test_decode_setTemp : decodeWord 0x7000001E#32 = .setTemp 0 30 := by decide
theorem test_decode_setTurbo : decodeWord 0x800000FE#32 = .setTurbo 0 0xFE := by decide
theorem test_decode_setDisplay : decodeWord 0x90000000#32 = .setDisplay 0 0 := by decide
theorem test_decode_setHealth : decodeWord 0xA0000000#32 = .setHealth 0 0 ∧ decodeWord 0xA0000100#32 = .setHealth 1 0 := by decide
theorem test_decode_setXfan : decodeWord 0xB0000001#32 = .setXfan 0 1 := by decide
theorem test_decode_setDispmode : decodeWord 0xC0000003#32 = .setDispmode 0 3 := by decide
theorem test_decode_emit : decodeWord 0xD0000000#32 = .emit 0 ∧ decodeWord 0xD0000100#32 = .emit 0x100 := by decide
theorem test_decode_reserved : decodeWord 0xEFFFFFFF#32 = .reservedE 0xFFFFFFF ∧ decodeWord 0xF0000000#32 = .reservedF 0 := by
  decide
theorem test_encode_words :
    encode (.seed 0 1 0 0x285C9) = 0x210285C9#32 ∧ encode (.setTemp 0 30) = 0x7000001E#32 ∧ encode (.emit 0) = 0xD0000000#32 := by
  decide
theorem test_decode_table_word :
    decodeTableWord 32 0x40000000 = some (.setMode 0 0) ∧ decodeTableWord 64 0x40000000 = none ∧
    decode 32 0x100000000 = .error .notOneWord := by decide

/-! ### Commands, one step each on a small state -/

/-- The state after the word is offered at the next edge. -/
def after (w : Nat) (s : State) : Option State :=
  match step (s.withFetchWord 32 w) with
  | .next t => some t
  | .fault _ => none
  | .refused _ => none

/-- The five records, packed as 95_test_vectors.md shows them. -/
def packedFile (s : State) : List (BitVec 20) := allModes.map fun m => pack (s.ms.get m)

/-- The reset state in another mode and with power. -/
def resetIn (power : Bool) (m : Mode) : State := { State.reset with power := power, mode := modeOrdinal m }

/-- The reset state with an active record of its own. -/
def stateOf (power : Bool) (m : Mode) (r : ModeState) : State :=
  { resetIn power m with ms := State.reset.ms.set m r }

theorem test_reset_records : packedFile State.reset = [0x18640, 0x18640, 0x18641, 0x18640, 0x18700] := by decide

-- V70, V103
theorem test_nop : after 0x00000000 State.reset = some State.reset := by decide
theorem test_nop_reserved : (after 0x00000001 State.reset).map (fun t => (t.err, t.errc)) = some (true, 2) := by decide
-- V71, P4
theorem test_init :
    (after 0x10000000 { stateOf true .heat ⟨3, 15, 255, true, true, false, true, 3⟩ with err := true, errc := 1 }) =
      some { State.reset with err := true, errc := 1 } := by decide
-- V72, V95
theorem test_seed : (after 0x210285C9 State.reset).map packedFile = some [0x18640, 0x285C9, 0x18641, 0x18640, 0x18700] := by
  decide
theorem test_seed_no_broadcast :
    (after 0x21008640 State.reset).map (fun t => allModes.map fun m => (t.ms.get m).health) =
      some [true, false, true, true, true] := by decide
-- V73, V87
theorem test_setPower : (after 0x30000001 State.reset).map (·.power) = some true := by decide
theorem test_setPower_cut : (after 0x30000002 (resetIn true .auto)).map (·.power) = some false := by decide
-- V74, V115
theorem test_setMode : (after 0x40000004 State.reset).map (fun t => (t.mode, (portOut t false).tempO)) = some (4, 28) := by
  decide +kernel
theorem test_setMode_range :
    (after 0x40000008 (resetIn false .dry)).map (fun t => (t.mode, t.err, t.errc)) = some (2, true, 3) := by decide
-- V75, V84
theorem test_setFan : (after 0x50000003 State.reset).map packedFile = some [0x18643, 0x18640, 0x18641, 0x18640, 0x18700] := by
  decide
theorem test_setFan_cut : (after 0x50000005 (resetIn false .heat)).map packedFile =
    some [0x18640, 0x18640, 0x18641, 0x18640, 0x18701] := by decide
-- V76, V85
theorem test_setLouver : (after 0x6000000B State.reset).map packedFile = some [0x1866C, 0x18640, 0x18641, 0x18640, 0x18700] := by
  decide
theorem test_setLouver_cut : (after 0x60000012 State.reset).map (fun t => t.ms.ms0.louver) = some 2 := by decide
-- V77, V92
theorem test_setTemp : (after 0x7000001E State.reset).map packedFile = some [0x18780, 0x18640, 0x18641, 0x18640, 0x18700] := by
  decide
theorem test_setTemp_verbatim : (after 0x700000FF State.reset).map (fun t => t.ms.ms0.temp) = some 255 := by decide
-- V78, V89
theorem test_setTurbo : (after 0x80000001 State.reset).map packedFile = some [0x1C640, 0x18640, 0x18641, 0x18640, 0x18700] := by
  decide
theorem test_setTurbo_cut : (after 0x800000FE State.reset).map (fun t => t.ms.ms0.turbo) = some false := by decide
-- V79
theorem test_setDisplay : (after 0x90000000 State.reset).map packedFile = some [0x10640, 0x18640, 0x18641, 0x18640, 0x18700] := by
  decide
-- V80, V107
theorem test_setHealth : (after 0xA0000000 State.reset).map packedFile = some [0x08640, 0x08640, 0x08641, 0x08640, 0x08700] := by
  decide
theorem test_setHealth_reserved : (after 0xA0000100 State.reset).map packedFile =
    some [0x18640, 0x18640, 0x18641, 0x18640, 0x18700] := by decide
-- V81, V90
theorem test_setXfan : (after 0xB0000001 State.reset).map packedFile = some [0x38640, 0x18640, 0x18641, 0x18640, 0x18700] := by
  decide
theorem test_setXfan_cut : (after 0xB00000FF (resetIn false .cool)).map (fun t => (t.ms.ms0.xfan, t.ms.ms1.xfan)) =
    some (false, true) := by decide
-- V82, V86
theorem test_setDispmode : (after 0xC0000003 State.reset).map packedFile = some [0xD8640, 0x18640, 0x18641, 0x18640, 0x18700] := by
  decide
theorem test_setDispmode_cut : (after 0xC0000006 State.reset).map (fun t => t.ms.ms0.dispmode) = some 2 := by decide
-- V83, V105
theorem test_emit : after 0xD0000000 State.reset = some { State.reset with busy := true } := by decide
theorem test_emit_reserved : (after 0xD0000100 State.reset).map (fun t => (t.busy, t.errc)) = some (false, 2) := by decide
-- V100, V102, V101
theorem test_reservedE : after 0xEFFFFFFF State.reset = some { State.reset with err := true, errc := 1 } := by decide
theorem test_reservedF : after 0xF0000000 State.reset = some { State.reset with err := true, errc := 1 } := by decide
-- V108, V111, V112: priority of causes
theorem test_fault_priority :
    ([0x41000007, 0x2F000000, 0x27000000, 0x20100000, 0x400000FF].map fun w => (after w State.reset).map (·.errc)) =
      [some 2, some 2, some 3, some 2, some 3] := by decide
-- P4: the first cause is kept, and commands execute with ERR set
theorem test_first_cause_kept :
    (after 0x40000007 { State.reset with err := true, errc := 1 }).map (fun t => (t.err, t.errc, t.mode)) =
      some (true, 1, 0) := by decide
theorem test_wordCause :
    ([0xE0000001#32, 0x41000007#32, 0x27000000#32, 0x40000005#32, 0x40000004#32, 0x24018700#32, 0x28000000#32].map wordCause) =
      [some 1, some 2, some 3, some 3, none, none, some 2] := by decide

/-! ### Packed records (R86) -/

theorem test_pack : pack ⟨1, 2, 23, false, true, false, true, 0⟩ = 0x285C9#20 ∧
    unpack 0xFFFFF#20 = ⟨3, 15, 255, true, true, true, true, 3⟩ := by decide

/-! ### The frame (V1, V2, V6a, V11 to V14, V20, V24, V29) -/

theorem test_frame_golden : (stateOf true .cool ⟨1, 2, 23, false, true, false, true, 0⟩).p0 = 0x50A00719#32 ∧
    (stateOf true .cool ⟨1, 2, 23, false, true, false, true, 0⟩).p1 = 0xA0000002#32 := by decide
theorem test_frame_golden_output :
    (stateOf true .cool ⟨1, 2, 23, false, true, false, true, 0⟩).bits = ⟨0x98E0050A#32, 0x40000005#32⟩ := by decide +kernel
theorem test_frame_health_only_with_power :
    (stateOf true .cool ⟨1, 2, 23, false, true, true, true, 0⟩).p0 = 0x50E00719#32 ∧
    (stateOf false .cool ⟨1, 2, 23, false, true, true, true, 0⟩).p0 = 0xD0A00711#32 := by decide
theorem test_frame_greatest : (stateOf true .heat ⟨3, 11, 30, true, true, true, true, 3⟩).bits =
    ⟨0x3E700F0A#32, 0xD0C00002#32⟩ := by decide +kernel
theorem test_frame_out_of_domain : (stateOf false .heat ⟨3, 15, 255, true, true, true, true, 3⟩).bits =
    ⟨0x2CF00D0B#32, 0xF0C0000A#32⟩ := by decide +kernel
theorem test_frame_reset : State.reset.bits = ⟨0x0090040B#32, 0x0000000D#32⟩ := by decide +kernel
theorem test_frame_heat_on : (resetIn true .heat).bits = ⟨0x3030060A#32, 0x00000004#32⟩ := by decide +kernel
-- V57: the swing flag of all sixteen codes
theorem test_swing : ((List.range 16).filter fun c => swing swingSet (BitVec.ofNat 4 c)) = [1, 7, 9, 11] := by decide
-- V58: temp below, in and above the range, with MODE 0
theorem test_temp_wrap : ([0, 7, 15, 16, 30, 31, 32, 39, 255].map fun t => ((tempField (BitVec.ofNat 8 t)).toNat,
      (checkNibble (BitVec.ofNat 8 t) 0).toNat)) =
    [(0, 2), (7, 9), (15, 1), (0, 2), (14, 0), (15, 1), (0, 2), (7, 9), (15, 1)] := by decide

/-! ### Bit reversal (V60, V61) -/

theorem test_rev32 : ([0x00000001#32, 0x00000040#32, 0x0000FFFF#32, 0x12345678#32, 0xD0200900#32].map rev32) =
    [0x80000000#32, 0x02000000#32, 0xFFFF0000#32, 0x1E6A2C48#32, 0x0090040B#32] := by decide +kernel
theorem test_rev32_swap_steps : swapGroups 1 0x55555555#32 0x12345678#32 = 0x2138A9B4#32 ∧
    swapGroups 2 0x33333333#32 0x2138A9B4#32 = 0x84C2A6E1#32 ∧ rev32BySwaps 0x50A00719#32 = 0x98E0050A#32 := by decide

/-! ### The expander (V40, V41, V42) -/

-- V40: the items whose space is 1606, and the first and last items
theorem test_timings_reset :
    ((List.range 140).filter fun i => itemAt ⟨0x0090040B#32, 0x0000000D#32⟩ i == some 1606) =
      [19, 25, 45, 59, 63, 65, 69, 131, 133, 137] := by decide +kernel
-- V41: the same, and the sum
theorem test_timings_golden :
    ((List.range 140).filter fun i => itemAt ⟨0x98E0050A#32, 0x40000005#32⟩ i == some 1606) =
      [3, 9, 11, 19, 21, 23, 45, 49, 59, 63, 69, 77, 133, 137] ∧
    ((timings ⟨0x98E0050A#32, 0x40000005#32⟩).map BitVec.toNat).sum = 127736 := by decide +kernel
-- V42, V43
theorem test_timings_ones : ([1, 67, 69, 71, 73, 139].map (itemAt ⟨0xFFFFFFFF#32, 0xFFFFFFFF#32⟩)) =
    [some 4422, some 527, some 1606, some 527, some 19816, some 527] := by decide
theorem test_no_item_above_139 : itemAt ⟨0#32, 0#32⟩ 139 = some 527 ∧ itemAt ⟨0#32, 0#32⟩ 140 = none := by decide

/-! ### The stream and the edges (V45, V46, V47) -/

/-- A cycle in which the consumer is ready and a SET_POWER waits. -/
def readyCycle : PortIn := ⟨false, true, 0x30000001#32, true⟩

/-- A cycle with the consumer not ready. -/
def stallCycle : PortIn := ⟨false, true, 0x30000001#32, false⟩

/-- A cycle in which the host drives `rst`. -/
def resetCycle : PortIn := ⟨true, true, 0x30000001#32, true⟩

/-- The reset state while it delivers item `i`, with one coming cycle. -/
def streaming (i : BitVec 8) (p : PortIn) : State := { State.reset with busy := true, idx := i, inputs := [p] }

theorem test_stall : (match step (streaming 0 stallCycle) with | .next t => t.idx | _ => 255) = 0 := by decide
theorem test_transfer : (match step (streaming 1 readyCycle) with | .next t => (t.idx, t.power) | _ => (255, true)) =
    (2, false) := by decide
theorem test_last_transfer : (match step (streaming 139 readyCycle) with | .next t => (t.busy, t.idx) | _ => (true, 255)) =
    (false, 0) := by decide
theorem test_reset_in_sequence : (match step (streaming 77 resetCycle) with | .next t => some t | _ => none) =
    some State.reset := by decide
theorem test_offered_items : ([0, 1, 2, 139].map fun i => (portOut (streaming i readyCycle) false).timData) =
    [8948, 4422, 632, 527] := by decide +kernel
theorem test_stream_marks : ([0, 1, 139].map fun i => (timMark (streaming i readyCycle), timLast (streaming i readyCycle))) =
    [(true, false), (false, false), (false, true)] := by decide
theorem test_idle_stream : timData State.reset = 0 ∧ timMark State.reset = false ∧ timLast State.reset = false := by decide
theorem test_quiet_host : (match step State.reset with | .next t => some t | _ => none) = some State.reset := by decide

/-! ### The assembler (R94, R95; V72, V85, V93) -/

theorem test_assemble_seed : assembleText "SEED 1, F_LOW, L_TOP, 23, OFF, ON, OFF, ON, D_OFF" = some [0x210285C9#32] := by
  decide +kernel
theorem test_assemble_hex_and_comment : assembleText "SET_LOUVER 0x12 ; cut when executed" = some [0x60000012#32] := by
  decide +kernel
theorem test_assemble_rejects : assembleText "SET_FAN 256" = none ∧ assembleText "SET_MODE 5" = some [0x40000005#32] := by
  decide +kernel
theorem test_assemble_pseudo : assembleText "SEED_DEFAULT HEAT" = some [0x24018700#32] ∧
    assembleText "POWER_ON" = some [0x30000001#32] := by decide +kernel
theorem test_construct : ((construct fun m => if m = .cool then some ⟨1, 2, 23, false, true, false, true, 0⟩ else none).mapM
      assemble).map (·.map encode) = some [0x10000000#32, 0x210285C9#32] := by decide
theorem test_select : ((select .heat .temp 30 .cool).mapM assemble).map (·.map encode) =
    some [0x40000004#32, 0x7000001E#32, 0x40000001#32] := by decide

/-! ### Witnesses: for each statement with hypotheses, data that meets them all -/

/-- An idle state about to receive one word. -/
def offered (w : Word) (s : State) : State := { s with inputs := [offerCommand w] }

theorem witness_StepExecutesTheOfferedCommand :
    (offered 0x30000001#32 State.reset).inputs = offerCommand 0x30000001#32 :: [] ∧
    (offerCommand 0x30000001#32).rst = false ∧ (offerCommand 0x30000001#32).cmdValid = true ∧
    (offered 0x30000001#32 State.reset).busy = false ∧ decodeWord (offerCommand 0x30000001#32).cmd = .setPower 0 1 := by decide
theorem witness_CommandPortHandshake :
    ((offerCommand 0#32).rst = false ∧ (offerCommand 0#32).cmdValid = true ∧ cmdReady State.reset false = true) ∧
    ¬ (resetCycle.rst = false) ∧ ¬ (quietInput.cmdValid = true) ∧ ¬ (cmdReady (streaming 0 stallCycle) false = true) := by decide
theorem witness_EveryEdgeDoesExactlyOneThing :
    (streaming 138 readyCycle).inputs = readyCycle :: [] ∧ (streaming 139 readyCycle).idx.toNat = 139 ∧
    (streaming 140 readyCycle).idx.toNat = 140 ∧ State.reset.inputs = [] := by decide
theorem witness_ResetEdgeTakesResetValues : (streaming 77 resetCycle).inputs = resetCycle :: [] ∧ resetCycle.rst = true := by
  decide
theorem witness_StateRightAfterReset : (0#4 : BitVec 4) ∉ swingSet := by decide
theorem witness_reserved_bits_of_each_command :
    (1#28 ≠ 0) ∧ (0x8000000#28 ≠ 0) ∧ (1#20 ≠ 0) ∧ (0x80000#20 ≠ 0) ∧ ((1#1 : BitVec 1) ≠ 0) ∧ ((8#4 : BitVec 4) ≠ 0) := by decide
theorem witness_SeedWritesOneWholeRecord : (4 < (5#3 : BitVec 3).toNat) ∧ (modeOrdinal .heat = 4#3) := by decide
theorem witness_SetModeSelectsTheActiveMode :
    (4#8 : BitVec 8).toNat ≤ 4 ∧ 4 < (5#8 : BitVec 8).toNat ∧ 4 < (8#8 : BitVec 8).toNat := by decide
theorem witness_PerModeSetters : (resetIn false .heat).mode = modeOrdinal .heat ∧ State.reset.mode = modeOrdinal .auto := by decide
theorem witness_PerModeSetterWithoutRecordStops : 4 < ({ State.reset with mode := 5 } : State).mode.toNat ∧
    (Instr.setFan 0 3) ∈ (perModeSetters 0 3).map (·.1) := by decide
theorem witness_EveryWordFaultsWithItsFirstCause :
    wordCause 0xE0000000#32 = some 1 ∧ wordCause 0x00000001#32 = some 2 ∧ wordCause 0x40000005#32 = some 3 ∧
    wordCause 0x40000004#32 = none ∧ after 0x40000004 State.reset = some (resetIn false .heat) := by decide
theorem witness_EveryWordFaultsWithItsFirstCause_step :
    (let s := offered 0x00000001#32 State.reset
     s.inputs = offerCommand 0x00000001#32 :: [] ∧ s.busy = false ∧ wordCause (offerCommand 0x00000001#32).cmd = some 2) ∧
    (offerCommand 0x00000001#32).rst = false ∧ (offerCommand 0x00000001#32).cmdValid = true := by decide
theorem witness_ErrIsStickyAndTheBlockKeepsWorking :
    (let s : State := offered 0x00000001#32 { State.reset with err := true, errc := 3 }
     s.err = true ∧ s.currentInput.rst = false ∧
      (match step s with | .next t => some (t.err, t.errc) | _ => none) = some (true, 3)) ∧
    wordCause 0x70000014#32 = none ∧
    (match exec (decodeWord 0x70000014#32) State.reset with | .next t => some t.ms.ms0.temp | _ => none) = some 20 := by decide
theorem witness_OnlyAFaultingWordSetsErr :
    (let s := offered 0x40000005#32 State.reset
     (match step s with | .next t => some (decide (t.err ≠ s.err), t.errc) | _ => none) = some (true, 3)) ∧
    (let s : State := { streaming 3 resetCycle with err := true, errc := 2 }
     (match step s with | .next t => some (decide (t.err ≠ s.err), t.errc) | _ => none) = some (true, 0)) := by decide
theorem witness_OnlySetModeInitOrResetWriteMode :
    (let s := offered 0x40000004#32 State.reset
     (match step s with | .next t => some (decide (t.mode ≠ s.mode)) | _ => none) = some true) := by decide
theorem witness_InactiveRecordsKeepTheirValue :
    (let s := offered 0x210285C9#32 State.reset
     s.mode ≠ modeOrdinal .cool ∧
      (match step s with | .next t => some (decide (t.ms.get .cool ≠ s.ms.get .cool)) | _ => none) = some true) := by decide
theorem witness_BusyFreezesTheController :
    (let s := streaming 5 readyCycle
     s.busy = true ∧ s.currentInput.rst = false ∧ (match step s with | .next t => some t.idx | _ => none) = some 6) ∧
    (let s := offered 0xD0000000#32 State.reset
     s.busy = false ∧ (match step s with | .next t => some t.busy | _ => none) = some true) := by decide
theorem witness_EveryStepKeepsTheInvariants :
    (streaming 139 readyCycle).Inv ∧
    (match step (streaming 139 readyCycle) with | .next t => decide t.Inv | _ => false) = true := by decide
theorem witness_NoStepStopsWhereTheInvariantsHold : (offered 0x50000003#32 (resetIn true .heat)).Inv := by decide
theorem witness_FrameOfPerModeSetters :
    ((perModeSetters 0 0xFF).map fun e => match exec e.1 (resetIn true .dry) with | .next t => decide (t = resetIn true .dry) | _ => true) =
      [false, false, false, false, true, false, false] ∧
    ((perModeSetters 1 0xFF).map fun e => match exec e.1 (resetIn true .dry) with | .next t => t.errc | _ => 0) =
      [2, 2, 2, 2, 2, 2, 2] := by decide
theorem witness_FrameOfTheOtherCommands :
    ([.nop 0, .init 0, .seed 0 4 0 0, .setPower 0 1, .setMode 0 4, .setHealth 0 0, .emit 0, .reservedE 0, .reservedF 9].map fun i =>
      match exec i State.reset with | .next _ => true | _ => false) = [true, true, true, true, true, true, true, true, true] := by decide
theorem witness_SettersAreIdempotent : (setterOf (.setMode 0 9)).isSome = true ∧
    (match exec (.setMode 0 9) State.reset with | .next t => some t.errc | _ => none) = some 3 := by decide
theorem witness_SettersOfDifferentFieldsCommute : setterOf (.setFan 0 3) = some .fan ∧ setterOf (.setHealth 1 0) = some .health ∧
    Setter.fan ≠ .health ∧ Setter.fan ≠ .mode ∧ Setter.health ≠ .mode := by decide
theorem witness_FrameIgnoresInactiveRecords : State.reset.mode = modeOrdinal .auto ∧ Mode.heat ≠ .auto := by decide
theorem witness_FrameDeterminesTheSettingsItCarries :
    (let s := stateOf true .cool ⟨1, 2, 31, false, true, false, true, 0⟩
     s.mode = modeOrdinal .cool ∧ 16 ≤ (s.ms.get .cool).temp.toNat ∧ (s.ms.get .cool).temp.toNat ≤ 31) ∧
    16 ≤ ((stateOf false .dry ⟨0, 0, 16, false, false, false, false, 0⟩).ms.get .dry).temp.toNat := by decide
theorem witness_TimingsHaveTheFixedStructure : (symbols ⟨0x80000001#32, 0x80000001#32⟩)[1]? = some .o ∧
    (symbols ⟨0x80000001#32, 0x80000001#32⟩)[32]? = some .o ∧ (symbols ⟨0x80000001#32, 0x80000001#32⟩)[37]? = some .o ∧
    (symbols ⟨0x80000001#32, 0x80000001#32⟩)[68]? = some .o ∧ (symbols ⟨0x80000001#32, 0x80000001#32⟩)[67]? = some .z := by decide
theorem witness_FixedItemsAndAlphabet : itemAt ⟨0#32, 0#32⟩ 0 = some 8948 ∧ itemAt ⟨0#32, 0#32⟩ 73 = some 19816 := by decide
theorem witness_StreamOutputsShowTheOfferedItem :
    (streaming 139 readyCycle).busy = true ∧ (streaming 139 readyCycle).idx.toNat ≤ 139 ∧ State.reset.busy = false := by decide
theorem witness_TransferAdvancesAndTheLastOneEnds :
    (streaming 138 readyCycle).inputs = readyCycle :: [] ∧ readyCycle.rst = false ∧ (streaming 138 readyCycle).busy = true ∧
    readyCycle.timReady = true ∧ (streaming 138 readyCycle).idx.toNat < 139 ∧ (streaming 139 readyCycle).idx.toNat = 139 := by decide
theorem witness_StalledConsumerHoldsTheBlock :
    (∀ p ∈ [stallCycle, stallCycle], p.rst = false ∧ p.timReady = false) ∧
    ({ streaming 7 stallCycle with inputs := [stallCycle, stallCycle, readyCycle] } : State).inputs =
      [stallCycle, stallCycle] ++ [readyCycle] := by decide
/-- 139 ready cycles with a stall after the first. -/
def readyFront : List PortIn := readyCycle :: stallCycle :: List.replicate 138 readyCycle
theorem witness_EmitDeliversTheWholeSequence :
    (let e := offerCommand 0xD0000000#32
     let s : State := { State.reset with inputs := e :: (readyFront ++ readyCycle :: []) }
     s.busy = false ∧ s.inputs = e :: (readyFront ++ readyCycle :: []) ∧ e.rst = false ∧ e.cmdValid = true ∧
      e.cmd = 0xD0000000#32) ∧
    (∀ p ∈ readyFront, p.rst = false) ∧ readyCycle.rst = false ∧ readyCycle.timReady = true ∧
    readyFront.countP (fun p => p.timReady) = 139 := by decide +kernel

end Sys2Proof.Tests
end

section
/-! SUPPORT. Proofs for 10_state.md: the factory defaults (R31) and the views (R43). -/

namespace Sys2Proof.Machine

/-- The Mode State file after reset is the file of the factory defaults (R31, R44). -/
@[simp] theorem State.reset_ms : State.reset.ms = defaultFile := rfl

/-- INIT with its reserved bits zero (R111). -/
theorem exec_init_zero (s : State) :
    exec (.init 0) s = .next (((s.withMs defaultFile).withPower false).withMode 0) := rfl

/-- Settles O10: reset and INIT both load `defaultFile`; the rows of the table are evaluated. -/
theorem factoryDefaultsAsTheTableGivesThem : Obligations.FactoryDefaultsAsTheTableGivesThem := by
  have rows_after_init (s : State) : ∃ t, exec (.init 0) s = .next t ∧ ∀ m, t.ms.get m = defaultRecord m :=
    ⟨_, exec_init_zero s, ModeFile.get_defaultFile⟩
  have rows_after_reset (m : Mode) : State.reset.ms.get m = defaultRecord m := by simp
  exact ⟨rfl, by decide, rfl, by decide, rfl, by decide, rfl, by decide, rfl, by decide,
    rows_after_reset, ModeFile.get_defaultFile, rows_after_init⟩

/-- Settles O39: the views read POWER, MODE and the active record, which is `MS[m]` when MODE selects `m`. -/
theorem viewsShowTheActiveRecord : Obligations.ViewsShowTheActiveRecord := by
  intro s m rst sw
  refine ⟨rfl, rfl, fun hm => ?_⟩
  rw [← activeRecord_of_ordinal hm]
  exact ⟨rfl, rfl, rfl, rfl, rfl, rfl, rfl, rfl⟩

end Sys2Proof.Machine
end

section
/-! SUPPORT. Proofs for 30_encoding.md: the packed record (R86), the command port (R81) and the reserved
opcodes (R89). -/

namespace Sys2Proof.Machine

/-! ### The packed record -/

/-- A one-bit field is zero-extended like the wider ones. -/
theorem bitValue_eq_setWidth (n : Nat) (b : Bool) : bitValue n b = (BitVec.ofBool b).setWidth n := by
  cases b <;> exact BitVec.eq_of_toNat_eq (by simp [bitValue])

/-- A field that fits at its position loses no bit there. -/
theorem toNat_shiftLeft_setWidth {w n : Nat} (x : BitVec w) (k : Nat) (h : w + k ≤ n) :
    (x.setWidth n <<< k).toNat = x.toNat <<< k := by
  have fits : x.toNat <<< k < 2 ^ n := calc
    x.toNat <<< k = x.toNat * 2 ^ k := Nat.shiftLeft_eq _ _
    _ < 2 ^ w * 2 ^ k := Nat.mul_lt_mul_of_pos_right x.isLt (Nat.two_pow_pos k)
    _ = 2 ^ (w + k) := (Nat.pow_add ..).symm
    _ ≤ 2 ^ n := Nat.pow_le_pow_right two_pos h
  rw [BitVec.toNat_shiftLeft, BitVec.toNat_setWidth_of_le (by omega), Nat.mod_eq_of_lt fits]

/-- The bits of a field that fits at its position. -/
theorem getLsbD_shiftLeft_setWidth {w n : Nat} (x : BitVec w) (k i : Nat) (h : w + k ≤ n) :
    (x.setWidth n <<< k).getLsbD i = (decide (k ≤ i) && x.getLsbD (i - k)) := by
  rw [BitVec.getLsbD, toNat_shiftLeft_setWidth x k h, Nat.testBit_shiftLeft]
  rfl

/-- A one-bit field is that bit at its position and nothing elsewhere. -/
theorem getLsbD_shiftLeft_bitValue {n : Nat} (b : Bool) (k i : Nat) (h : 1 + k ≤ n) :
    (bitValue n b <<< k).getLsbD i = (decide (i = k) && b) := by
  rw [bitValue_eq_setWidth, getLsbD_shiftLeft_setWidth _ k i h, BitVec.getLsbD_ofBool, ← Bool.and_assoc,
    ← Bool.decide_and, decide_eq_decide.mpr (show k ≤ i ∧ i - k = 0 ↔ i = k by omega)]

/-- `pack` as a number: each field at its position of R86. -/
theorem toNat_pack (r : ModeState) : (pack r).toNat =
    r.fan.toNat ||| r.louver.toNat <<< 2 ||| r.temp.toNat <<< 6 ||| r.turbo.toNat <<< 14 ||| r.display.toNat <<< 15
      ||| r.health.toNat <<< 16 ||| r.xfan.toNat <<< 17 ||| r.dispmode.toNat <<< 18 := by
  simp (disch := decide) only [pack, bitValue_eq_setWidth, BitVec.toNat_or, toNat_shiftLeft_setWidth,
    BitVec.toNat_ofBool, BitVec.toNat_setWidth_of_le]

/-- The bits of `pack`, field by field (R86). -/
theorem getLsbD_pack (r : ModeState) (i : Nat) : (pack r).getLsbD i =
    if i < 2 then r.fan.getLsbD i else if i < 6 then r.louver.getLsbD (i - 2) else if i < 14 then r.temp.getLsbD (i - 6)
    else if i = 14 then r.turbo else if i = 15 then r.display else if i = 16 then r.health else if i = 17 then r.xfan
    else r.dispmode.getLsbD (i - 18) := by
  simp (disch := decide) only [pack, BitVec.getLsbD_or, getLsbD_shiftLeft_setWidth, getLsbD_shiftLeft_bitValue,
    BitVec.getLsbD_setWidth]
  split_ifs <;> simp (disch := omega) only [BitVec.getLsbD_of_ge, decide_eq_true, decide_eq_false, Bool.true_and,
    Bool.false_and, Bool.and_false, Bool.or_false, Bool.false_or]

/-- No field of a record is lost in its packed form (R86). -/
theorem unpack_pack (r : ModeState) : unpack (pack r) = r := by
  ext i hi
  case turbo | display | health | xfan => exact getLsbD_pack r _
  all_goals
    rw [← BitVec.getLsbD_eq_getElem, unpack, BitVec.getLsbD_extractLsb', getLsbD_pack]
    simp (disch := omega) only [if_pos, if_neg, Nat.add_sub_cancel_left, Nat.zero_add, decide_eq_true, Bool.true_and,
      BitVec.getLsbD_eq_getElem]

/-- No bit of a packed value is lost in its record, whatever the value (R86). -/
theorem pack_unpack (v : BitVec 20) : pack (unpack v) = v := by
  apply BitVec.eq_of_getLsbD_eq
  intro i hi
  rw [getLsbD_pack]
  simp only [unpack, BitVec.getLsbD_extractLsb']
  split_ifs <;> simp (disch := omega) only [decide_true, decide_eq_true, Nat.add_sub_cancel', Bool.true_and,
    Nat.zero_add, *]

/-- Settles O5: `pack` puts each field where `unpack` reads it. -/
theorem packedRecordLayoutAndInverse : Obligations.PackedRecordLayoutAndInverse :=
  ⟨fun _ => rfl, toNat_pack, unpack_pack, pack_unpack, by decide⟩

/-! ### The command port -/

/-- The acceptance condition of R81, as the host sees it on the ports. -/
theorem commandAccepted_iff (p : PortIn) (s : State) : commandAccepted p s = true ↔
    p.rst = false ∧ p.cmdValid = true ∧ (portOut s p.rst).cmdReady = true := by
  simp [commandAccepted, portOut, and_assoc]

/-- A step whose edge has its inputs listed. -/
theorem step_cons (s : State) (p : PortIn) (rest : List PortIn) :
    step { s with inputs := p :: rest } = clockEdge p { s with inputs := rest } := rfl

/-- The whole effect of an accepting edge is that of the command (R81). -/
theorem clockEdge_of_accepted {p : PortIn} {s : State} (h : commandAccepted p s = true) :
    clockEdge p s = exec (decodeWord p.cmd) s := by
  have hr : p.rst = false := ((commandAccepted_iff p s).mp h).1
  simp [clockEdge, hr, h]

/-- An edge that accepts no command does the same with any word on `cmd`, offered or not (R81). -/
theorem clockEdge_withdraw {p : PortIn} {s : State} (w : Word) (h : commandAccepted p s = false) :
    clockEdge { p with cmd := w, cmdValid := false } s = clockEdge p s := by
  have withdrawn : commandAccepted { p with cmd := w, cmdValid := false } s = false := by simp [commandAccepted]
  simp only [clockEdge, h, withdrawn]
  rfl

/-- Settles O7: an edge looks at the command port through `commandAccepted` alone. -/
theorem commandPortHandshake : Obligations.CommandPortHandshake := by
  refine ⟨fun _ _ _ => rfl, fun s p rest hr hv hc => ?_, fun s p rest w hn => ?_⟩
  · rw [step_cons]
    exact clockEdge_of_accepted ((commandAccepted_iff p { s with inputs := rest }).mpr ⟨hr, hv, hc⟩)
  · rw [step_cons, step_cons]
    refine clockEdge_withdraw w (Bool.eq_false_iff.mpr fun h => hn ?_)
    exact (commandAccepted_iff p { s with inputs := rest }).mp h

/-! ### The reserved opcodes -/

/-- The fault of R213 by its code. -/
theorem takeFault_eq_afterFault (c : Cause) (s : State) : takeFault c s = afterFault (causeCode c) s := rfl

/-- Opcode `0xE` leaves the other bits free (R89). -/
theorem decodeWord_opcodeE (rest : BitVec 28) : decodeWord (0xE#4 ++ rest) = .reservedE rest := by
  simp [decodeWord]

/-- Opcode `0xF` leaves the other bits free (R89). -/
theorem decodeWord_opcodeF (rest : BitVec 28) : decodeWord (0xF#4 ++ rest) = .reservedF rest := by
  simp [decodeWord]

/-- The effect of opcode `0xE` (R210). -/
theorem exec_reservedE (rest : BitVec 28) (s : State) : exec (.reservedE rest) s = .next (afterFault 1 s) :=
  congrArg Host.Outcome.next (takeFault_eq_afterFault .illegalOpcode s)

/-- The effect of opcode `0xF` (R210). -/
theorem exec_reservedF (rest : BitVec 28) (s : State) : exec (.reservedF rest) s = .next (afterFault 1 s) :=
  congrArg Host.Outcome.next (takeFault_eq_afterFault .illegalOpcode s)

/-- Settles O26: both opcodes decode with any other bits, and their effect is the fault with cause 1. -/
theorem reservedOpcodesFaultWithCauseOne : Obligations.ReservedOpcodesFaultWithCauseOne :=
  ⟨fun rest s => ⟨decodeWord_opcodeE rest, exec_reservedE rest s⟩,
    fun rest s => ⟨decodeWord_opcodeF rest, exec_reservedF rest s⟩⟩

end Sys2Proof.Machine
end

section
/-! SUPPORT. Proofs for 40_construct.md: the construction commands NOP (R114), INIT (R111) and SEED (R112). -/

namespace Sys2Proof.Machine

/-! ### Reserved bits -/

/-- A command whose reserved bits are not all zero does nothing but fault with cause 2 (R90, R210). -/
theorem unlessReserved_of_eq_false {b : Bool} (s : State) (effect : Result) (h : b = false) :
    unlessReserved b s effect = .next (afterFault 2 s) := by
  rw [h, unlessReserved_false, takeFault_eq_afterFault, causeCode]

/-- The check of a single reserved field, as formats Z and S have it (R83, R84). -/
theorem unlessReserved_of_ne_zero {n : Nat} {rsv : BitVec n} (s : State) (effect : Result) (h : rsv ≠ 0) :
    unlessReserved (rsv == 0) s effect = .next (afterFault 2 s) :=
  unlessReserved_of_eq_false s effect (beq_eq_false_iff_ne.mpr h)

/-! ### NOP and INIT -/

/-- NOP with its reserved bits zero (R114). -/
theorem exec_nop_zero (s : State) : exec (.nop 0) s = .next s := unlessReserved_true s _

/-- Settles O12: past the check of its reserved bits NOP answers the state it was given. -/
theorem nopWritesNothing : Obligations.NopWritesNothing :=
  ⟨by decide, by decide, exec_nop_zero, fun _ s hr => unlessReserved_of_ne_zero s _ hr⟩

/-- Settles O13: past the check of its reserved bits INIT writes the records, POWER and MODE. -/
theorem initConstructsWithDefaults : Obligations.InitConstructsWithDefaults :=
  ⟨by decide, by decide, exec_init_zero, fun _ s hr => unlessReserved_of_ne_zero s _ hr⟩

/-! ### SEED -/

/-- The bitwise-or of the three fields of format M at their positions is the word with zero reserved bits (R85). -/
theorem or_eq_formatM (op : BitVec 4) (msel : BitVec 3) (ms : BitVec 20) :
    (op.setWidth 32 <<< 28 ||| msel.setWidth 32 <<< 24 ||| ms.setWidth 32 : Word) =
      op ++ 0#1 ++ msel ++ 0#4 ++ ms := by
  apply BitVec.eq_of_getLsbD_eq
  intro i hi
  refine Eq.trans ?_ (getLsbD_formatM op 0#1 msel 0#4 ms i).symm
  simp (disch := decide) only [BitVec.getLsbD_or, getLsbD_shiftLeft_setWidth, BitVec.getLsbD_setWidth]
  split_ifs <;>
    simp (disch := omega) only [BitVec.getLsbD_of_ge, BitVec.getLsbD_zero, decide_eq_true, decide_eq_false,
      Bool.true_and, Bool.false_and, Bool.or_false, Bool.false_or]

section
variable (op : BitVec 4) (hi : BitVec 1) (msel : BitVec 3) (lo : BitVec 4) (ms : BitVec 20)

@[simp] theorem reservedHi_formatM : BitVec.extractLsb' (n := 32) 27 1 (op ++ hi ++ msel ++ lo ++ ms) = hi :=
  (BitVec.extractLsb'_append_eq_of_le (by decide)).trans <| (BitVec.extractLsb'_append_eq_of_le (by decide)).trans <|
    (BitVec.extractLsb'_append_eq_of_le (by decide)).trans BitVec.extractLsb'_append_eq_right

@[simp] theorem msel_formatM : BitVec.extractLsb' (n := 32) 24 3 (op ++ hi ++ msel ++ lo ++ ms) = msel :=
  (BitVec.extractLsb'_append_eq_of_le (by decide)).trans <| (BitVec.extractLsb'_append_eq_of_le (by decide)).trans
    BitVec.extractLsb'_append_eq_right

@[simp] theorem reservedLo_formatM : BitVec.extractLsb' (n := 32) 20 4 (op ++ hi ++ msel ++ lo ++ ms) = lo :=
  (BitVec.extractLsb'_append_eq_of_le (by decide)).trans BitVec.extractLsb'_append_eq_right

@[simp] theorem packed_formatM : BitVec.extractLsb' (n := 32) 0 20 (op ++ hi ++ msel ++ lo ++ ms) = ms :=
  BitVec.extractLsb'_append_eq_right

/-- The word of a SEED decodes to the fields it was put together from (R85). -/
theorem decodeWord_seed : decodeWord (0x2#4 ++ hi ++ msel ++ lo ++ ms) = .seed hi msel lo ms := by
  simp [decodeWord]

end

/-- SEED of a record that exists (R112). -/
theorem exec_seed_ordinal (m : Mode) (ms : BitVec 20) (s : State) :
    exec (.seed 0 (modeOrdinal m) 0 ms) s = .next (s.withMs (s.ms.set m (unpack ms))) := by
  simp [exec, execSeed]

/-- SEED of a record that does not exist (R112, R212). -/
theorem exec_seed_out_of_range {msel : BitVec 3} (ms : BitVec 20) (s : State) (h : 4 < msel.toNat) :
    exec (.seed 0 msel 0 ms) s = .next (afterFault 3 s) := by
  simp [exec, execSeed, modeOfOrdinal_eq_none.mpr h, takeFault_eq_afterFault, causeCode]

/-- SEED with a reserved bit set in either field (R112, R210). -/
theorem exec_seed_reserved {hi : BitVec 1} {lo : BitVec 4} (msel : BitVec 3) (ms : BitVec 20) (s : State)
    (h : hi ≠ 0 ∨ lo ≠ 0) : exec (.seed hi msel lo ms) s = .next (afterFault 2 s) :=
  unlessReserved_of_eq_false s _ (by simpa [imp_iff_not_or] using h)

/-- Settles O14: the fields of `unpack` are those the statement writes out, and each fault has its lemma. -/
theorem seedWritesOneWholeRecord : Obligations.SeedWritesOneWholeRecord := by
  refine ⟨fun msel ms => ?_, exec_seed_ordinal, fun hi msel lo ms s h => exec_seed_reserved msel ms s h,
    fun msel ms s h => exec_seed_out_of_range ms s h⟩
  exact (congrArg decodeWord (or_eq_formatM 0x2 msel ms)).trans (decodeWord_seed 0 msel 0 ms)

end Sys2Proof.Machine
end

section
/-! SUPPORT. Proofs for 41_setters.md: the ten setters, each by its word, its effect and its fault (R121 to R132). -/

namespace Sys2Proof.Machine

/-! ### The words of the setters -/

/-- The bitwise-or of an opcode and an `imm` at their positions is the format-S word with zero reserved bits (R84). -/
theorem or_eq_formatS (op : BitVec 4) (imm : BitVec 8) :
    (op.setWidth 32 <<< 28 ||| imm.setWidth 32 : Word) = op ++ 0#20 ++ imm := by
  apply BitVec.eq_of_getLsbD_eq
  intro i hi
  refine Eq.trans ?_ (getLsbD_formatS op 0#20 imm i).symm
  simp (disch := decide) only [BitVec.getLsbD_or, getLsbD_shiftLeft_setWidth, BitVec.getLsbD_setWidth]
  split_ifs <;>
    simp (disch := omega) only [BitVec.getLsbD_of_ge, BitVec.getLsbD_zero, decide_eq_true, decide_eq_false,
      Bool.true_and, Bool.false_and, Bool.or_false, Bool.false_or]

/-- The word of a setter decodes to that setter. -/
theorem decodeWord_encode_setterInstr (f : Setter) (imm : BitVec 8) :
    decodeWord (encode (setterInstr f imm)) = setterInstr f imm := by
  cases f <;>
    simp only [setterInstr, encode, decodeWord, opcodeField_formatS, reservedS_formatS, immField_formatS] <;> rfl

/-- The opcode of a setter in bits 31..28 and `imm` in bits 7..0 are the whole of its word (R84, R88). -/
theorem decodeWord_setter (f : Setter) (op : BitVec 4) {imm : BitVec 8}
    (h : encode (setterInstr f imm) = op ++ 0#20 ++ imm) :
    decodeWord (op.setWidth 32 <<< 28 ||| imm.setWidth 32) = setterInstr f imm := by
  rw [or_eq_formatS, ← h, decodeWord_encode_setterInstr]

/-! ### SET_POWER and SET_MODE -/

/-- SET_POWER with its reserved bits zero (R121). -/
theorem exec_setPower_zero (imm : BitVec 8) (s : State) :
    exec (.setPower 0 imm) s = .next (s.withPower (immBit imm)) := unlessReserved_true s _

/-- SET_MODE of a mode that exists (R122). -/
theorem exec_setMode_in_range {imm : BitVec 8} (s : State) (h : imm.toNat ≤ 4) :
    exec (.setMode 0 imm) s = .next (s.withMode (imm.extractLsb' 0 3)) := by
  simp [exec, execSetMode, immMode, Nat.not_lt.mpr h]

/-- SET_MODE of a mode that does not exist: the whole `imm` counts (R122, R212). -/
theorem exec_setMode_out_of_range {imm : BitVec 8} (s : State) (h : 4 < imm.toNat) :
    exec (.setMode 0 imm) s = .next (afterFault 3 s) := by
  simp [exec, execSetMode, immMode, h, takeFault_eq_afterFault, causeCode]

/-- SET_MODE with a reserved bit set, in range or not (R122, R210). -/
theorem exec_setMode_reserved {rsv : BitVec 20} (imm : BitVec 8) (s : State) (h : rsv ≠ 0) :
    exec (.setMode rsv imm) s = .next (afterFault 2 s) := unlessReserved_of_ne_zero s _ h

/-- No form of SET_MODE changes POWER (R121, R134 c). -/
theorem exec_setMode_power (rsv : BitVec 20) (imm : BitVec 8) (s : State) :
    ∃ t, exec (.setMode rsv imm) s = .next t ∧ t.power = s.power := by
  by_cases hr : rsv = 0
  · subst hr
    obtain hi | hi := Nat.lt_or_ge 4 imm.toNat
    · exact ⟨_, exec_setMode_out_of_range s hi, rfl⟩
    · exact ⟨_, exec_setMode_in_range s hi, rfl⟩
  · exact ⟨_, exec_setMode_reserved imm s hr, rfl⟩

/-- Settles O15: past the check of its reserved bits SET_POWER writes POWER, and each form of SET_MODE keeps it. -/
theorem setPowerWritesPower : Obligations.SetPowerWritesPower :=
  ⟨fun _ => decodeWord_setter .power 0x3 rfl, exec_setPower_zero,
    fun _ _ s hr => unlessReserved_of_ne_zero s _ hr, exec_setMode_power⟩

/-- Settles O16: one lemma for each range of `imm`, and one for the reserved bits, which are checked first. -/
theorem setModeSelectsTheActiveMode : Obligations.SetModeSelectsTheActiveMode :=
  ⟨fun _ => decodeWord_setter .mode 0x4 rfl, fun _ s hi => exec_setMode_in_range s hi,
    fun _ s hi => exec_setMode_out_of_range s hi, fun _ imm s hr => exec_setMode_reserved imm s hr⟩

/-! ### The seven per-mode setters -/

/-- A well-formed per-mode setter, while MODE selects a record, changes that record alone (R123). -/
theorem exec_fieldWrite_of_ordinal (i : Instr) {g : ModeState → ModeState} {s : State} {m : Mode}
    (hg : fieldWrite i = some g) (hw : i.wellFormed = true) (hm : s.mode = modeOrdinal m) :
    exec i s = .next (s.withMs (s.ms.set m (g (s.ms.get m)))) := by
  rw [exec_fieldWrite hg, hw, unlessReserved_true, writeActive_of_ordinal g hm]

/-- A record written where MODE selects it is what the outputs then read (R43, R134 d). -/
theorem activeRecord_withMs_set {s : State} {m : Mode} (r : ModeState) (hm : s.mode = modeOrdinal m) :
    (s.withMs (s.ms.set m r)).activeRecord = r :=
  (activeRecord_of_ordinal (s := s.withMs (s.ms.set m r)) hm).trans (ModeFile.get_set_same s.ms m r)

/-- Settles O17: the change of the active record is the write of `imm[1:0]` to fan. -/
theorem setFanWritesActiveFan : Obligations.SetFanWritesActiveFan :=
  ⟨fun _ => decodeWord_setter .fan 0x5 rfl,
    fun imm _ _ hm => (exec_fieldWrite_of_ordinal (.setFan 0 imm) rfl rfl hm :),
    fun _ _ s hr => unlessReserved_of_ne_zero s _ hr⟩

/-- Settles O18: the change of the active record is the write of `imm[3:0]` to louver. -/
theorem setLouverWritesActiveLouver : Obligations.SetLouverWritesActiveLouver :=
  ⟨fun _ => decodeWord_setter .louver 0x6 rfl,
    fun imm _ _ hm => (exec_fieldWrite_of_ordinal (.setLouver 0 imm) rfl rfl hm :),
    fun _ _ s hr => unlessReserved_of_ne_zero s _ hr⟩

/-- Settles O19: the change of the active record is the write of the whole `imm` to temp, and `temp_o` reads
that record. -/
theorem setTempWritesActiveTemp : Obligations.SetTempWritesActiveTemp := by
  have effect (imm : BitVec 8) (s : State) (m : Mode) (hm : s.mode = modeOrdinal m) :
      exec (.setTemp 0 imm) s = .next (s.withMs (s.ms.set m { s.ms.get m with temp := imm })) :=
    (exec_fieldWrite_of_ordinal (.setTemp 0 imm) rfl rfl hm :)
  refine ⟨fun _ => decodeWord_setter .temp 0x7 rfl, effect, fun imm s m rst sw hm => ⟨_, effect imm s m hm, ?_⟩,
    fun _ _ s hr => unlessReserved_of_ne_zero s _ hr⟩
  exact congrArg ModeState.temp (activeRecord_withMs_set _ hm)

/-- Settles O20: the change of the active record is the write of `imm[0]` to turbo. -/
theorem setTurboWritesActiveTurbo : Obligations.SetTurboWritesActiveTurbo :=
  ⟨fun _ => decodeWord_setter .turbo 0x8 rfl,
    fun imm _ _ hm => (exec_fieldWrite_of_ordinal (.setTurbo 0 imm) rfl rfl hm :),
    fun _ _ s hr => unlessReserved_of_ne_zero s _ hr⟩

/-- Settles O21: the change of the active record is the write of `imm[0]` to display. -/
theorem setDisplayWritesActiveDisplay : Obligations.SetDisplayWritesActiveDisplay :=
  ⟨fun _ => decodeWord_setter .display 0x9 rfl,
    fun imm _ _ hm => (exec_fieldWrite_of_ordinal (.setDisplay 0 imm) rfl rfl hm :),
    fun _ _ s hr => unlessReserved_of_ne_zero s _ hr⟩

/-- Settles O23: the change of the active record is the write of `imm[0]` to xfan. -/
theorem setXfanWritesActiveXfan : Obligations.SetXfanWritesActiveXfan :=
  ⟨fun _ => decodeWord_setter .xfan 0xB rfl,
    fun imm _ _ hm => (exec_fieldWrite_of_ordinal (.setXfan 0 imm) rfl rfl hm :),
    fun _ _ s hr => unlessReserved_of_ne_zero s _ hr⟩

/-- Settles O24: the change of the active record is the write of `imm[1:0]` to dispmode. -/
theorem setDispmodeWritesActiveDispmode : Obligations.SetDispmodeWritesActiveDispmode :=
  ⟨fun _ => decodeWord_setter .dispmode 0xC rfl,
    fun imm _ _ hm => (exec_fieldWrite_of_ordinal (.setDispmode 0 imm) rfl rfl hm :),
    fun _ _ s hr => unlessReserved_of_ne_zero s _ hr⟩

/-! ### SET_HEALTH -/

/-- SET_HEALTH with its reserved bits zero: the same write to each of the five records (R130). -/
theorem exec_setHealth_zero (imm : BitVec 8) (s : State) :
    exec (.setHealth 0 imm) s = .next (s.withMs (s.ms.mapAll fun r => { r with health := immBit imm })) :=
  unlessReserved_true s _

/-- Settles O22: the new file is `mapAll` of the write of `imm[0]` to health, which every record shows. -/
theorem setHealthBroadcastsToAllFive : Obligations.SetHealthBroadcastsToAllFive :=
  ⟨fun _ => decodeWord_setter .health 0xA rfl,
    fun imm s => ⟨_, exec_setHealth_zero imm s, ModeFile.get_mapAll s.ms _⟩,
    fun _ _ s hr => unlessReserved_of_ne_zero s _ hr⟩

end Sys2Proof.Machine
end

section
/-! SUPPORT. Proofs for 42_frame_serializer.md: the bits of both words before reversal (R142 to R157), and the
fields, flags and power-off toggle read off them. -/

namespace Sys2Proof.Machine

/-! ### The accumulator and its fields -/

/-- The bits of a placed field (R142). -/
theorem getLsbD_place {n : Nat} (v : BitVec n) (pos i : Nat) (h : n + pos ≤ 32) :
    (place v pos).getLsbD i = (decide (pos ≤ i) && v.getLsbD (i - pos)) := getLsbD_shiftLeft_setWidth v pos i h

/-- A one-bit field is placed as a number of the accumulator's width (R142). -/
theorem place_bitValue (b : Bool) (pos : Nat) : place (bitValue 1 b) pos = bitValue 32 b <<< pos := by
  cases b <;> rfl

/-- The constant of R143 is the flags 28 and 30. -/
theorem b0Const_eq_flags : b0Const = bitValue 32 true <<< 28 ||| bitValue 32 true <<< 30 := by decide

/-- The constant of R153 is bit 31. -/
theorem powerOffToggle_eq_flag : powerOffToggle = bitValue 32 true <<< 31 := by decide

/-- The temperature field as a number (R148, R160). -/
theorem toNat_tempField (temp : BitVec 8) : ((tempField temp).toNat : Int) = ((temp.toNat : Int) - 16) % 16 := by
  rw [tempField, BitVec.toNat_ofInt, tempBias]
  omega

/-- 16 is a multiple of the field's modulus, so the temperature field is `temp[3:0]` (R148). -/
theorem tempField_eq_extractLsb' (temp : BitVec 8) : tempField temp = temp.extractLsb' 0 4 := by
  apply BitVec.eq_of_toNat_eq
  have field := toNat_tempField temp
  rw [BitVec.extractLsb'_toNat, Nat.shiftRight_zero]
  omega

/-- A slice of a word is the field whose bits stand there. -/
theorem extractLsb'_eq_of_getLsbD {w n : Nat} {x : BitVec w} {v : BitVec n} {pos : Nat}
    (h : ∀ i < n, x.getLsbD (pos + i) = v.getLsbD i) : x.extractLsb' pos n = v := by
  apply BitVec.eq_of_getLsbD_eq
  intro i hi
  rw [BitVec.getLsbD_extractLsb', decide_eq_true hi, Bool.true_and, h i hi]

/-! ### Both words bit by bit -/

/-- The bits of the accumulator before the branch on POWER, in the order of their positions (R143 to R151). -/
theorem getLsbD_word0Fields (sw : List (BitVec 4)) (power : Bool) (mode : BitVec 3) (a : ModeState) (i : Nat) :
    (word0Fields sw power mode a).getLsbD i =
      if i < 3 then mode.getLsbD i else if i = 3 then power else if i < 6 then a.fan.getLsbD (i - 4)
      else if i = 6 then swing sw a.louver else if i < 8 then false else if i < 12 then (tempField a.temp).getLsbD (i - 8)
      else if i = 20 then a.turbo else if i = 21 then a.display else if i = 23 then a.xfan
      else decide (i = 28 ∨ i = 30) := by
  simp (disch := decide) only [word0Fields, b0Const_eq_flags, place_bitValue, BitVec.getLsbD_or,
    getLsbD_shiftLeft_bitValue, getLsbD_place]
  split_ifs <;> simp (disch := omega) only [BitVec.getLsbD_of_ge, decide_eq_true, decide_eq_false, Bool.true_and,
    Bool.false_and, Bool.and_false, Bool.and_true, Bool.or_false, Bool.false_or, Nat.sub_zero, Bool.decide_or]

/-- Word 0 before reversal is the accumulator with two more bits: health at 22 with power on (R152), and the
toggled bit 31 with power off (R153). -/
theorem getLsbD_word0 (sw : List (BitVec 4)) (power : Bool) (mode : BitVec 3) (a : ModeState) (i : Nat) :
    (word0 sw power mode a).getLsbD i =
      if i = 22 then a.health && power else if i = 31 then !power else (word0Fields sw power mode a).getLsbD i := by
  have health_free : (word0Fields sw power mode a).getLsbD 22 = false := getLsbD_word0Fields sw power mode a 22
  have toggle_free : (word0Fields sw power mode a).getLsbD 31 = false := getLsbD_word0Fields sw power mode a 31
  cases power with
  | true =>
    simp (disch := decide) only [word0, if_true, place_bitValue, BitVec.getLsbD_or, getLsbD_shiftLeft_bitValue]
    split_ifs with h22 h31
    · simp [h22, health_free, -BitVec.getLsbD_eq_getElem]
    · simp [h31, toggle_free, -BitVec.getLsbD_eq_getElem]
    · simp [h22]
  | false =>
    simp (disch := decide) only [word0, Bool.false_eq_true, if_false, powerOffToggle_eq_flag, BitVec.getLsbD_xor,
      getLsbD_shiftLeft_bitValue]
    split_ifs with h22 h31
    · simp [h22, health_free, -BitVec.getLsbD_eq_getElem]
    · simp [h31, toggle_free, -BitVec.getLsbD_eq_getElem]
    · simp [h31]

/-- The bits of word 1 before reversal (R154 to R157). -/
theorem getLsbD_word1 (mode : BitVec 3) (a : ModeState) (i : Nat) : (word1 mode a).getLsbD i =
    if i < 4 then a.louver.getLsbD i else if i < 8 then false else if i < 10 then a.dispmode.getLsbD (i - 8)
    else if i < 28 then false else (checkNibble a.temp mode).getLsbD (i - 28) := by
  simp (disch := decide) only [word1, BitVec.getLsbD_or, getLsbD_place]
  split_ifs <;> simp (disch := omega) only [BitVec.getLsbD_of_ge, decide_eq_true, decide_eq_false, Bool.true_and,
    Bool.false_and, Bool.and_false, Bool.or_false, Bool.false_or, Nat.sub_zero]

/-! ### The fields, the flags and the toggle -/

section
variable (sw : List (BitVec 4)) (power : Bool) (mode : BitVec 3) (a : ModeState)

/-- MODE is `p0[2:0]` (R144). -/
theorem mode_word0 : (word0 sw power mode a).extractLsb' 0 3 = mode := extractLsb'_eq_of_getLsbD fun i hi => by
  simp (disch := omega) only [getLsbD_word0, getLsbD_word0Fields, if_pos, if_neg, Nat.zero_add]

/-- The fan field is `p0[5:4]` (R146). -/
theorem fan_word0 : (word0 sw power mode a).extractLsb' 4 2 = a.fan := extractLsb'_eq_of_getLsbD fun i hi => by
  simp (disch := omega) only [getLsbD_word0, getLsbD_word0Fields, if_pos, if_neg, Nat.add_sub_cancel_left]

/-- The temperature field is `p0[11:8]` (R148). -/
theorem tempField_word0 : (word0 sw power mode a).extractLsb' 8 4 = tempField a.temp :=
  extractLsb'_eq_of_getLsbD fun i hi => by
    simp (disch := omega) only [getLsbD_word0, getLsbD_word0Fields, if_pos, if_neg, Nat.add_sub_cancel_left]

/-- The louver code is `p1[3:0]` (R154). -/
theorem louver_word1 : (word1 mode a).extractLsb' 0 4 = a.louver := extractLsb'_eq_of_getLsbD fun i hi => by
  simp (disch := omega) only [getLsbD_word1, if_pos, Nat.zero_add]

/-- The display mode is `p1[9:8]` (R155). -/
theorem dispmode_word1 : (word1 mode a).extractLsb' 8 2 = a.dispmode := extractLsb'_eq_of_getLsbD fun i hi => by
  simp (disch := omega) only [getLsbD_word1, if_pos, if_neg, Nat.add_sub_cancel_left]

/-- The check nibble is `p1[31:28]` (R156). -/
theorem checkNibble_word1 : (word1 mode a).extractLsb' 28 4 = checkNibble a.temp mode :=
  extractLsb'_eq_of_getLsbD fun i hi => by
    simp (disch := omega) only [getLsbD_word1, if_neg, Nat.add_sub_cancel_left]

/-- The fields of one bit, each at its position (R145, R149 to R152). -/
theorem bitFields_word0 : (word0 sw power mode a).getLsbD 3 = power ∧ (word0 sw power mode a).getLsbD 20 = a.turbo ∧
    (word0 sw power mode a).getLsbD 21 = a.display ∧ (word0 sw power mode a).getLsbD 22 = (a.health && power) ∧
    (word0 sw power mode a).getLsbD 23 = a.xfan := by
  simp [getLsbD_word0, getLsbD_word0Fields, -BitVec.getLsbD_eq_getElem]

/-- The constant flags (R143) and bit 31 (R153). -/
theorem flags_word0 : (word0 sw power mode a).getLsbD 28 = true ∧ (word0 sw power mode a).getLsbD 29 = false ∧
    (word0 sw power mode a).getLsbD 30 = true ∧ (word0 sw power mode a).getLsbD 31 = !power := by
  simp [getLsbD_word0, getLsbD_word0Fields, -BitVec.getLsbD_eq_getElem]

/-- The four flags as one nibble (R153). -/
theorem flagNibble_word0 : (word0 sw power mode a).extractLsb' 28 4 = if power then 0x5#4 else 0xD#4 := by
  obtain ⟨h28, h29, h30, h31⟩ := flags_word0 sw power mode a
  refine extractLsb'_eq_of_getLsbD fun i hi => ?_
  cases power <;> interval_cases i <;> assumption

/-- The fields before the branch depend on POWER at bit 3 alone. -/
theorem word0Fields_power_off : word0Fields sw false mode a = word0Fields sw true mode a &&& ~~~(1#32 <<< 3) := by
  refine BitVec.eq_of_getLsbD_eq fun i hi => ?_
  have mask : (1#32 <<< 3).getLsbD i = decide (i = 3) := by
    rw [← Bool.and_true (decide _), ← getLsbD_shiftLeft_bitValue (n := 32) true 3 i (by decide)]
    rfl
  rw [BitVec.getLsbD_and, BitVec.getLsbD_not, mask, getLsbD_word0Fields, getLsbD_word0Fields, decide_eq_true hi]
  by_cases h : i = 3
  · simp only [h, lt_irrefl, if_true, if_false, decide_true, Bool.not_true, Bool.and_false]
  · simp only [h, if_false, decide_false, Bool.not_false, Bool.and_true]

/-- With power on and health off, the branch adds nothing to the fields before it (R152). -/
theorem word0_power_on_health_off : word0 sw true mode { a with health := false } = word0Fields sw true mode a := by
  rw [word0, if_pos rfl, place_bitValue, bitValue, if_neg Bool.false_ne_true, BitVec.zero_shiftLeft, BitVec.or_zero]
  rfl

/-- With power off, the branch is the exclusive-or with bit 31 (R153). -/
theorem word0_power_off : word0 sw false mode a = word0Fields sw false mode a ^^^ 0x80000000#32 := rfl

end

/-- Settles O44: the active record is the mode's, and its fields stand where the bits of both words say. -/
theorem frameFieldsStandAtTheirPositions : Obligations.FrameFieldsStandAtTheirPositions := by
  intro sw s m hm
  rw [← activeRecord_of_ordinal hm]
  obtain ⟨power, turbo, display, health, xfan⟩ := bitFields_word0 sw s.power s.mode s.activeRecord
  have temp : (s.p0 sw).extractLsb' 8 4 = tempField s.activeRecord.temp := tempField_word0 ..
  have check : s.p1.extractLsb' 28 4 = checkNibble s.activeRecord.temp s.mode := checkNibble_word1 ..
  exact ⟨mode_word0 .., power, fan_word0 .., temp ▸ toNat_tempField _, temp.trans (tempField_eq_extractLsb' _), turbo,
    display, xfan, health, louver_word1 .., dispmode_word1 .., check ▸ BitVec.toNat_ofNat ..⟩

/-- Settles O45: the flags are bits of `getLsbD_word0`, and the power-off word is the exclusive-or of the fields
before the branch, which lose bit 3 alone. -/
theorem wordZeroFlagsAndPowerOffToggle : Obligations.WordZeroFlagsAndPowerOffToggle := by
  refine ⟨fun sw power mode a => ?_, fun sw mode a => ?_⟩
  · obtain ⟨h28, h29, h30, h31⟩ := flags_word0 sw power mode a
    exact ⟨h28, h29, h30, h31, flagNibble_word0 ..⟩
  · rw [word0_power_off, word0_power_on_health_off, word0Fields_power_off]

end Sys2Proof.Machine
end

section
/-! SUPPORT. Proofs for 43_bit_reversal.md: `rev32` bit by bit and as its own inverse (R170, R172). -/

namespace Sys2Proof.Machine

/-- The bits of a reversed word: `rev32` is the library's reversal, counted from the top of `x` (R170). -/
theorem getLsbD_rev32 (x : Word) {i : Nat} (hi : i < 32) : (rev32 x).getLsbD i = x.getLsbD (31 - i) := by
  rw [rev32, BitVec.getLsbD_reverse, BitVec.getMsbD_eq_getLsbD, decide_eq_true hi, Bool.true_and]

/-- Reversing a word twice gives it back (R172). -/
theorem rev32_involutive : Function.Involutive rev32 := fun _ => BitVec.reverse_reverse_eq

/-- Settles O50: the bits are `getLsbD_rev32`, and a function that is its own inverse is a bijection. -/
theorem revReversesAndIsAnInvolution : Obligations.RevReversesAndIsAnInvolution :=
  ⟨fun x _ hi => getLsbD_rev32 x hi, rev32_involutive, rev32_involutive.bijective⟩

end Sys2Proof.Machine
end

section
/-! SUPPORT. Proofs for 44_timing_expander.md: EMIT (R188), the fixed structure of `Timings` (R186), the outputs of
the stream (R189, R190) and its stalls (R193). -/

namespace Sys2Proof.Machine

/-! ### EMIT -/

/-- EMIT with its reserved bits zero (R188). -/
theorem exec_emit_zero (s : State) : exec (.emit 0) s = .next (startStream s) := unlessReserved_true s _

/-- Settles O25: past the check of its reserved bits EMIT writes BUSY and IDX. -/
theorem emitStartsTheStream : Obligations.EmitStartsTheStream :=
  ⟨by decide, by decide, exec_emit_zero, fun _ s hr => unlessReserved_of_ne_zero s _ hr⟩

/-! ### The sequence, pair by pair -/

@[simp] theorem length_wordSymbols (w : Word) : (wordSymbols w).length = 32 := by simp [wordSymbols]

/-- The symbols of a word that starts at position `n` stand bit 31 first (R185). -/
theorem getElem?_append_wordSymbols {front : List Category} (back : List Category) (w : Word) {n k : Nat}
    (hn : front.length = n) (hk : n ≤ k) (hk' : k < n + 32) :
    (front ++ wordSymbols w ++ back)[k]? = some (bitSymbol (w.getLsbD (n + 31 - k))) := by
  subst hn
  obtain ⟨j, rfl⟩ := Nat.exists_eq_add_of_le hk
  have hj : j < 32 := by omega
  simp [List.getElem?_append, wordSymbols, hj, Nat.add_sub_add_left]

@[simp] theorem length_symbols (b : Frame) : (symbols b).length = 70 := by simp [symbols]

/-- The fixed structure, read by index, is the symbol function of R187. -/
theorem getElem?_symbols (b : Frame) (k : Nat) : (symbols b)[k]? = symbolAt b k := by
  unfold symbolAt
  split_ifs with header inWord0 sep0 sep1 sep2 sep3 inWord1 trailer
  · subst k; rfl
  · rw [symbols, List.append_assoc, List.append_assoc]
    exact getElem?_append_wordSymbols _ b.b0 (n := 1) rfl (by omega) (by omega)
  iterate 4 · subst k; rfl
  · exact getElem?_append_wordSymbols [.z] b.b1 (n := 37) (by simp) (by omega) (by omega)
  · subst k; rfl
  · exact List.getElem?_eq_none (by rw [length_symbols]; omega)

/-- Pairs written out hold the mark and the space of pair `k` at positions `2 k` and `2 k + 1` (R186). -/
theorem getElem?_flatMap_pairItems (l : List Category) (k : Nat) :
    (l.flatMap pairItems)[2 * k]? = l[k]?.map (fun c => (timingTable c).mark) ∧
    (l.flatMap pairItems)[2 * k + 1]? = l[k]?.map (fun c => (timingTable c).space) := by
  induction l generalizing k with
  | nil => simp
  | cons c l ih =>
    cases k with
    | zero => exact ⟨rfl, rfl⟩
    | succ k => exact ih k

theorem length_timings (b : Frame) : (timings b).length = 140 := by
  have two (c : Category) : (pairItems c).length = 2 := rfl
  simp [timings, List.length_flatMap, two]

/-- Settles O52: the symbols by index are `symbolAt`, and each stands for two values. -/
theorem timingsHaveTheFixedStructure : Obligations.TimingsHaveTheFixedStructure := by
  intro b
  refine ⟨length_symbols b, rfl, fun k h1 h32 => ?_, rfl, rfl, rfl, rfl, fun k h37 h68 => ?_, rfl, length_timings b,
    fun k c hc => ?_⟩
  · rw [getElem?_symbols, symbolAt, if_neg (by omega), if_pos h32, bitSymbol]
  · simp (disch := omega) only [getElem?_symbols, symbolAt, if_neg, if_pos, bitSymbol]
  · simpa [hc, timings] using getElem?_flatMap_pairItems (symbols b) k

/-! ### The outputs of the stream -/

/-- Every position up to 139 names an item (R187). -/
theorem exists_itemAt (b : Frame) {i : Nat} (hi : i ≤ 139) : ∃ v, itemAt b i = some v := by
  have inRange : i / 2 < (symbols b).length := by rw [length_symbols]; omega
  rw [itemAt, ← getElem?_symbols, List.getElem?_eq_getElem inRange]
  exact ⟨_, rfl⟩

/-- Below 140 the offered item is the item of the sequence: the free value is not read (R190). -/
theorem itemAt_eq_offeredItem (s : State) (sw : List (BitVec 4)) (h : s.idx.toNat ≤ 139) :
    itemAt (s.bits sw) s.idx.toNat = some (s.offeredItem sw) := by
  obtain ⟨v, hv⟩ := exists_itemAt (s.bits sw) h
  rw [State.offeredItem, hv, Option.getD_some]

/-- Settles O57: idle, the outputs are 0; while BUSY, `tim_data` is the offered item. -/
theorem streamOutputsShowTheOfferedItem : Obligations.StreamOutputsShowTheOfferedItem := by
  intro s rst sw
  refine ⟨rfl, fun hb => ?_, fun hb hi => ?_, fun hb => ?_⟩
  · simp [portOut, timData, timMark, timLast, hb]
  · rw [itemAt_eq_offeredItem s sw hi]
    simp [portOut, timData, hb]
  · simp [portOut, timMark, timLast, lastItem, hb]

/-! ### A stalled consumer -/

/-- No item is taken at an edge at which the consumer is not ready (R191). -/
theorem itemTransferred_of_not_ready {p : PortIn} (s : State) (h : p.timReady = false) :
    itemTransferred p s = false := by
  simp [itemTransferred, h]

/-- While BUSY no command is accepted (R81). -/
theorem commandAccepted_of_busy (p : PortIn) {s : State} (h : s.busy = true) : commandAccepted p s = false := by
  simp [commandAccepted, cmdReady, h]

/-- An edge with the stream stalled changes nothing (R193). -/
theorem clockEdge_of_stall {p : PortIn} {s : State} (hb : s.busy = true) (hr : p.rst = false)
    (ht : p.timReady = false) : clockEdge p s = .next s := by
  simp [clockEdge, hr, commandAccepted_of_busy p hb, itemTransferred_of_not_ready s ht]

/-- A step with the stream stalled takes the edge's inputs off the list and changes nothing else. -/
theorem step_of_stall {p : PortIn} {s : State} {rest : List PortIn} (hb : s.busy = true) (hr : p.rst = false)
    (ht : p.timReady = false) (hin : s.inputs = p :: rest) : step s = .next (s.withInputs rest) := by
  rw [step, currentInput_cons hin, dropInput_eq, hin]
  exact clockEdge_of_stall hb hr ht

/-- Any number of stalled edges leave the block as it was and deliver nothing (R193). -/
theorem runSteps_of_stall (sw : List (BitVec 4)) {stall rest : List PortIn} {s : State} (hb : s.busy = true)
    (hs : ∀ p ∈ stall, p.rst = false ∧ p.timReady = false) (hin : s.inputs = stall ++ rest) :
    runSteps stall.length s = .next (s.withInputs rest) ∧ delivered sw stall.length s = [] := by
  induction stall generalizing s with
  | nil => exact ⟨congrArg (fun l => Host.Outcome.next (s.withInputs l)) hin, rfl⟩
  | cons p stall ih =>
    obtain ⟨⟨hr, ht⟩, hs⟩ := List.forall_mem_cons.mp hs
    have stays : step s = .next (s.withInputs (stall ++ rest)) := step_of_stall hb hr ht hin
    have nothingTaken : transferredItem s.currentInput s sw = none := by
      simp [transferredItem, currentInput_cons hin, itemTransferred_of_not_ready s ht]
    obtain ⟨runs, delivers⟩ := ih (s := s.withInputs (stall ++ rest)) hb hs rfl
    simp only [List.length_cons, runSteps, delivered, stays, nothingTaken]
    exact ⟨runs, delivers⟩

/-- Settles O59: the state differs in the host's inputs alone, which no port shows. -/
theorem stalledConsumerHoldsTheBlock : Obligations.StalledConsumerHoldsTheBlock := by
  intro s stall rest sw hb hs hin
  obtain ⟨runs, delivers⟩ := runSteps_of_stall sw hb hs hin
  exact ⟨_, runs, rfl, fun _ => rfl, delivers⟩

end Sys2Proof.Machine
end

section
/-! SUPPORT. Proofs for 60_exceptions.md: the cause a word faults with (R210), the sticky fault flag (R213) and the
block that keeps working (R216). -/

namespace Sys2Proof.Machine

open Laws.EncodedOpcode (opcodeOf)

/-! ### The cause of a command -/

/-- The mode index a command names (R212), and 0 for a command that names none. -/
def modeIndex : Instr → Nat
  | .setMode _ imm => imm.toNat
  | .seed _ msel _ _ => msel.toNat
  | _ => 0

/-- The code of the cause a command faults with, the first in the order of R210. It does not depend on the state. -/
def faultCode (i : Instr) : Option (BitVec 2) :=
  if 0xE#4 ≤ opcodeOf i then some 1
  else if i.wellFormed = false then some 2
  else if 4 < modeIndex i then some 3
  else none

/-- A reserved opcode does nothing but fault with cause 1 (R89, R210). -/
theorem exec_of_reserved_opcode {i : Instr} (h : 0xE#4 ≤ opcodeOf i) (s : State) :
    exec i s = .next (afterFault 1 s) := by
  cases i with
  | reservedE rest => exact exec_reservedE rest s
  | reservedF rest => exact exec_reservedF rest s
  | _ => exact absurd h (of_decide_eq_false rfl)

/-- A defined opcode with a reserved bit set does nothing but fault with cause 2 (R90, R210). -/
theorem exec_of_reserved_bits {i : Instr} (hop : ¬ 0xE#4 ≤ opcodeOf i) (h : i.wellFormed = false) (s : State) :
    exec i s = .next (afterFault 2 s) := by
  cases i with
  | reservedE | reservedF => exact absurd (of_decide_eq_true rfl) hop
  | _ => exact unlessReserved_of_eq_false s _ h

/-- A well-formed command that names a mode index above 4 does nothing but fault with cause 3 (R212). -/
theorem exec_of_mode_range {i : Instr} (hw : i.wellFormed = true) (h : 4 < modeIndex i) (s : State) :
    exec i s = .next (afterFault 3 s) := by
  cases i with
  | setMode rsv imm =>
    obtain rfl : rsv = 0 := by simpa [Instr.wellFormed] using hw
    exact exec_setMode_out_of_range s h
  | seed hi msel lo ms =>
    obtain ⟨rfl, rfl⟩ : hi = 0 ∧ lo = 0 := by simpa [Instr.wellFormed] using hw
    exact exec_seed_out_of_range ms s h
  | _ => exact absurd h (of_decide_eq_false rfl)

/-- A command that has a cause does nothing but take that fault (R213). -/
theorem exec_of_faultCode {i : Instr} {c : BitVec 2} (h : faultCode i = some c) (s : State) :
    exec i s = .next (afterFault c s) := by
  unfold faultCode at h
  split_ifs at h with hop hw hm <;> cases h
  · exact exec_of_reserved_opcode hop s
  · exact exec_of_reserved_bits hop hw s
  · exact exec_of_mode_range (eq_true_of_ne_false hw) hm s

/-- A command without a cause is defined, well-formed and in range: none of the checks of R210 holds. -/
theorem faultCode_eq_none {i : Instr} :
    faultCode i = none ↔ ¬ 0xE#4 ≤ opcodeOf i ∧ i.wellFormed = true ∧ modeIndex i ≤ 4 := by
  unfold faultCode
  split_ifs <;> simp_all

/-- The write of the active record does not look at ERR and ERRC (R216). -/
theorem writeActive_withErr (g : ModeState → ModeState) (s : State) (e : Bool) (c : BitVec 2) :
    writeActive g (s.withErr e c) = andThen (writeActive g s) fun t => .next (t.withErr e c) := by
  unfold writeActive
  rw [State.withErr_mode]
  split <;> rfl

theorem exec_fieldWrite_withErr {i : Instr} {g : ModeState → ModeState} (hg : fieldWrite i = some g)
    (hw : i.wellFormed = true) (s : State) (e : Bool) (c : BitVec 2) :
    exec i (s.withErr e c) = andThen (exec i s) fun t => .next (t.withErr e c) := by
  simp only [exec_fieldWrite hg, hw, unlessReserved_true, writeActive_withErr]

/-- A command that has no cause does the same with any value of ERR and ERRC, and hands both on (R216). -/
theorem exec_withErr {i : Instr} (h : faultCode i = none) (s : State) (e : Bool) (c : BitVec 2) :
    exec i (s.withErr e c) = andThen (exec i s) fun t => .next (t.withErr e c) := by
  obtain ⟨-, hw, hm⟩ := faultCode_eq_none.mp h
  cases i with
  | setFan | setLouver | setTemp | setTurbo | setDisplay | setXfan | setDispmode =>
    exact exec_fieldWrite_withErr rfl hw s e c
  | reservedE | reservedF => cases hw
  | seed hi msel lo ms =>
    obtain ⟨rfl, rfl⟩ : hi = 0 ∧ lo = 0 := by simpa [Instr.wellFormed] using hw
    obtain ⟨m, rfl⟩ := exists_mode_of_le hm
    rw [exec_seed_ordinal, exec_seed_ordinal]
    rfl
  | setMode rsv imm =>
    obtain rfl : rsv = 0 := by simpa [Instr.wellFormed] using hw
    rw [exec_setMode_in_range _ hm, exec_setMode_in_range _ hm]
    rfl
  | nop rsv | init rsv | setPower rsv | setHealth rsv | emit rsv =>
    obtain rfl : rsv = 0 := by simpa [Instr.wellFormed] using hw
    rfl

/-- A command that has no cause keeps ERR and ERRC (R213). -/
theorem exec_keeps_err {i : Instr} {s t : State} (hi : faultCode i = none) (h : exec i s = .next t) :
    t.err = s.err ∧ t.errc = s.errc := by
  have same := exec_withErr hi s s.err s.errc
  rw [h] at same
  have unchanged : t = t.withErr s.err s.errc := Host.Outcome.next.inj (h.symm.trans same)
  rw [unchanged]
  exact ⟨rfl, rfl⟩

/-! ### The cause of a word -/

/-- Masking a word leaves zero exactly when the field under the mask is zero. -/
theorem and_fieldMask_eq_zero (w : Word) (pos len : Nat) (h : len + pos ≤ 32) :
    w &&& ((BitVec.allOnes len).setWidth 32 <<< pos) = 0#32 ↔ w.extractLsb' pos len = 0#len := by
  have bit (i : Nat) : (w &&& ((BitVec.allOnes len).setWidth 32 <<< pos)).getLsbD i =
      (decide (pos ≤ i ∧ i - pos < len) && w.getLsbD i) := by
    rw [BitVec.getLsbD_and, getLsbD_shiftLeft_setWidth _ _ _ h, BitVec.getLsbD_allOnes, Bool.decide_and, Bool.and_comm]
  refine ⟨fun hz => BitVec.eq_of_getLsbD_eq fun i hi => ?_, fun hz => BitVec.eq_of_getLsbD_eq fun i hi => ?_⟩
  · have hbit := (bit (pos + i)).symm.trans (congrArg (·.getLsbD (pos + i)) hz)
    simpa [hi] using hbit
  · have hbit := congrArg (·.getLsbD (i - pos)) hz
    rw [bit]
    by_cases hin : pos ≤ i ∧ i - pos < len
    · simpa [hin] using hbit
    · simp [hin]

/-- `wordCause` reads the opcode where the decoder does. -/
theorem toNat_opcodeBits (w : Word) : (w >>> 28).toNat = (opcodeField w).toNat := by
  rw [opcodeField, BitVec.extractLsb'_toNat, BitVec.toNat_ushiftRight, Nat.mod_eq_of_lt]
  have := w.isLt
  omega

/-- `wordCause` reads `imm` where the decoder does. -/
theorem toNat_immBits (w : Word) : (w &&& 0xFF#32).toNat = (immField w).toNat := by
  rw [immField, BitVec.extractLsb'_toNat, BitVec.toNat_and]
  exact Nat.and_two_pow_sub_one_eq_mod _ 8

/-- `wordCause` reads `msel` where the decoder does. -/
theorem toNat_mselBits (w : Word) : ((w >>> 24) &&& 7#32).toNat = (w.extractLsb' 24 3).toNat := by
  rw [BitVec.extractLsb'_toNat, BitVec.toNat_and, BitVec.toNat_ushiftRight]
  exact Nat.and_two_pow_sub_one_eq_mod _ 3

/-- The mask of format Z covers bits 27..0 (R83). -/
theorem and_maskZ_eq_zero (w : Word) : w &&& 0x0FFFFFFF#32 = 0#32 ↔ lowField w = 0#28 :=
  and_fieldMask_eq_zero w 0 28 (by decide)

/-- The mask of format S covers bits 27..8 (R84). -/
theorem and_maskS_eq_zero (w : Word) : w &&& 0x0FFFFF00#32 = 0#32 ↔ reservedS w = 0#20 :=
  and_fieldMask_eq_zero w 8 20 (by decide)

/-- The mask of format M covers bit 27 and bits 23..20 (R85). -/
theorem and_maskM_eq_zero (w : Word) :
    w &&& 0x08F00000#32 = 0#32 ↔ w.extractLsb' 27 1 = 0#1 ∧ w.extractLsb' 20 4 = 0#4 := by
  rw [← and_fieldMask_eq_zero w 27 1 (by decide), ← and_fieldMask_eq_zero w 20 4 (by decide)]
  refine Iff.trans ?_ BitVec.or_eq_zero_iff
  rw [← BitVec.and_or_distrib_left]
  rfl

/-- The cause read off the bits of a word is that of the command it decodes to, opcode by opcode: with the opcode
known, both sides compare the same fields. -/
theorem wordCause_eq_faultCode (w : Word) : wordCause w = faultCode (decodeWord w) := by
  unfold decodeWord
  split
  -- The decoder's last arm is opcode `0xF`, known there only as none of the others.
  case h_16 =>
    have hop : 0xE ≤ (opcodeField w).toNat := by
      simp only [imp_false] at *
      omega
    simp only [wordCause, toNat_opcodeBits, hop]
    rfl
  all_goals
    simp only [wordCause, toNat_opcodeBits, toNat_immBits, toNat_mselBits, *]
    simp [faultCode, opcodeOf, Instr.wellFormed, modeIndex, and_maskZ_eq_zero, and_maskS_eq_zero, and_maskM_eq_zero]
  -- SEED and SET_MODE: the two sides differ in how they decide their conditions.
  case h_3 | h_5 => congr

/-- The cause of a word is the fault its command takes (R210, R213). -/
theorem exec_decodeWord_of_wordCause {w : Word} {c : BitVec 2} (h : wordCause w = some c) (s : State) :
    exec (decodeWord w) s = .next (afterFault c s) :=
  exec_of_faultCode ((wordCause_eq_faultCode w).symm.trans h) s

/-- A fault shows on `err` and `errc` alone: no other port reads the fault flag (R213, R214). -/
theorem portOut_afterFault (s : State) (c : BitVec 2) (rst : Bool) (sw : List (BitVec 4)) :
    portOut (afterFault c s) rst sw =
      { portOut s rst sw with err := true, errc := if s.err then s.errc else c } := rfl

/-- Settles O28: a word has the cause of its command, and an edge that accepts the word has the command's effect. -/
theorem everyWordFaultsWithItsFirstCause : Obligations.EveryWordFaultsWithItsFirstCause := by
  refine ⟨fun w s => ?_, fun s p rest c hin hr hv hb hc => ?_, portOut_afterFault⟩
  · cases hc : wordCause w with
    | some c => exact exec_decodeWord_of_wordCause hc s
    | none => exact fun t => exec_keeps_err ((wordCause_eq_faultCode w).symm.trans hc)
  · have accepted : commandAccepted p (s.withInputs rest) = true := by simp [commandAccepted, cmdReady, hr, hv, hb]
    rw [step, currentInput_cons hin, dropInput_eq, hin, List.tail_cons, clockEdge_of_accepted accepted]
    exact exec_decodeWord_of_wordCause hc _

/-! ### The fault flag is sticky -/

/-- No command clears ERR or changes ERRC while ERR is set: only a fault writes them, and it keeps the first
cause (R213, R216). -/
theorem exec_of_err {i : Instr} {s t : State} (hs : s.err = true) (h : exec i s = .next t) :
    t.err = true ∧ t.errc = s.errc := by
  cases exec_next h with
  | faulted c => exact ⟨rfl, if_pos hs⟩
  | _ => exact ⟨hs, rfl⟩

/-- Settles O29: of what an edge can do only a reset clears ERR, and neither a command without a cause nor the frame
looks at ERR and ERRC. -/
theorem errIsStickyAndTheBlockKeepsWorking : Obligations.ErrIsStickyAndTheBlockKeepsWorking := by
  refine ⟨fun s t hs hr h => ?_, fun w s t c hc h => ?_, fun _ _ _ => rfl⟩
  · obtain ⟨hreset, -⟩ | ⟨-, -, -, hcommand⟩ | ⟨-, -, -, htransfer⟩ | ⟨-, -, -, rfl⟩ := clockEdge_next h
    · simp [hr] at hreset
    · exact exec_of_err (s := s.dropInput) hs hcommand
    · obtain ⟨-, rfl⟩ | ⟨-, rfl⟩ := transfer_next htransfer <;> exact ⟨hs, rfl⟩
    · exact ⟨hs, rfl⟩
  · refine (exec_withErr ((wordCause_eq_faultCode w).symm.trans hc) s true c).trans ?_
    rw [h]
    rfl

end Sys2Proof.Machine
end

section
/-! SUPPORT. Proofs for 70_reset_and_hazards.md: an edge with `rst = 1` (R230). -/

namespace Sys2Proof.Machine

/-- Reset has priority over the command port and the stream (R219 a). -/
theorem clockEdge_of_reset {p : PortIn} (s : State) (hr : p.rst = true) : clockEdge p s = .next (resetBlock s) :=
  if_pos hr

/-- A step with `rst = 1` resets the block and takes the edge's inputs off the list (R230). -/
theorem step_of_reset {p : PortIn} {s : State} {rest : List PortIn} (hin : s.inputs = p :: rest)
    (hr : p.rst = true) : step s = .next (resetBlock (s.withInputs rest)) := by
  rw [step, currentInput_cons hin, dropInput_eq, hin]
  exact clockEdge_of_reset _ hr

/-- Settles O9: the step is `resetBlock`, whose records are those of `defaultFile`. -/
theorem resetEdgeTakesResetValues : Obligations.ResetEdgeTakesResetValues := by
  intro s p rest hin hr
  exact ⟨_, step_of_reset hin hr, ModeFile.get_defaultFile, rfl, rfl, rfl, rfl, rfl, rfl, rfl⟩

end Sys2Proof.Machine
end

section
/-! SUPPORT. Proofs for 30_encoding.md: the round trips of decoder and encoder (R82 to R85). -/

namespace Sys2Proof

/-! ### The round trips -/

/-- No bit of a command is lost in its word, format by format (R82 to R85). -/
theorem decodeWord_encode (i : Instr) : decodeWord (encode i) = i := by
  cases i with
  | seed hi msel lo ms => exact Machine.decodeWord_seed hi msel lo ms
  | nop | init | emit | reservedE | reservedF =>
    simp only [encode, decodeWord, opcodeField_formatZ, lowField_formatZ]
    rfl
  | _ =>
    simp only [encode, decodeWord, opcodeField_formatS, reservedS_formatS, immField_formatS]
    rfl

section
variable {w : Word} {op : BitVec 4}

/-- A word whose opcode has format Z, written out (R83). -/
theorem formatZ_of_opcode (h : (opcodeField w).toNat = op.toNat) : (op ++ lowField w : BitVec (4 + 28)) = w := by
  rw [← BitVec.eq_of_toNat_eq h, formatZ_eq]

/-- A word whose opcode has format S, written out (R84). -/
theorem formatS_of_opcode (h : (opcodeField w).toNat = op.toNat) :
    (op ++ reservedS w ++ immField w : BitVec (4 + 20 + 8)) = w := by
  rw [← BitVec.eq_of_toNat_eq h, formatS_eq]

/-- A word whose opcode has format M, written out (R85). -/
theorem formatM_of_opcode (h : (opcodeField w).toNat = op.toNat) :
    (op ++ w.extractLsb' 27 1 ++ w.extractLsb' 24 3 ++ w.extractLsb' 20 4 ++ w.extractLsb' 0 20
      : BitVec (4 + 1 + 3 + 4 + 20)) = w := by
  rw [← BitVec.eq_of_toNat_eq h, formatM_eq]

end

/-- No bit of a word is lost in its command, opcode by opcode (R82 to R85). -/
theorem encode_decodeWord (w : Word) : encode (decodeWord w) = w := by
  unfold decodeWord
  split
  case h_3 h => exact formatM_of_opcode h
  case h_1 h | h_2 h | h_14 h | h_15 h => exact formatZ_of_opcode h
  -- The decoder's last arm is opcode `0xF`, known there only as none of the others.
  case h_16 =>
    have hop : (opcodeField w).toNat = (0xF#4).toNat := by
      simp only [imp_false] at *
      simp only [BitVec.toNat_ofNat]
      omega
    exact formatZ_of_opcode hop
  all_goals next h => exact formatS_of_opcode h

/-- Decoding and encoding are inverse to each other. -/
theorem decodeWord_eq_iff {w : Word} {i : Instr} : decodeWord w = i ↔ w = encode i :=
  ⟨fun h => h ▸ (encode_decodeWord w).symm, fun h => h ▸ decodeWord_encode i⟩

/-- Settles O1: the fields of a word put together from fields are those fields. -/
theorem encodeThenDecodeGivesTheCommandBack : Obligations.EncodeThenDecodeGivesTheCommandBack := decodeWord_encode

/-- Settles O2: a word is put together from its fields. -/
theorem decodeThenEncodeGivesTheWordBack : Obligations.DecodeThenEncodeGivesTheWordBack := encode_decodeWord

end Sys2Proof
end

section
/-! SUPPORT. Proofs for 30_encoding.md section 5: the opcode map (R88), and the step that accepts a word. -/

namespace Sys2Proof.Machine

/-! ### The opcode map -/

/-- A pattern under a mask, as an equation for the whole word. -/
theorem and_mask_eq_iff {n : Nat} {w mask pattern : BitVec n} (hp : pattern &&& mask = pattern) :
    w &&& mask = pattern ↔ w = pattern ||| (w &&& ~~~mask) := by
  constructor
  · rintro rfl
    rw [← BitVec.and_or_distrib_left, BitVec.or_not_self, BitVec.and_allOnes]
  · intro h
    rw [h, BitVec.and_or_distrib_right, hp, BitVec.and_assoc, BitVec.and_comm (~~~mask), BitVec.and_not_self]
    simp

/-- Masking a word with its lowest bits leaves the lowest field. -/
theorem and_lowMask {n : Nat} (w : BitVec n) (len : Nat) :
    w &&& (BitVec.allOnes len).setWidth n = (w.extractLsb' 0 len).setWidth n := by
  refine BitVec.eq_of_getLsbD_eq fun i hi => ?_
  simp [hi, Bool.and_comm]

/-- Masking a word with a field's bits leaves the field at its position. -/
theorem and_fieldMask {n : Nat} (w : BitVec n) (pos len : Nat) (h : len + pos ≤ n) :
    w &&& ((BitVec.allOnes len).setWidth n <<< pos) = (w.extractLsb' pos len).setWidth n <<< pos := by
  refine BitVec.eq_of_getLsbD_eq fun i hi => ?_
  rw [BitVec.getLsbD_and, getLsbD_shiftLeft_setWidth _ _ _ h, getLsbD_shiftLeft_setWidth _ _ _ h,
    BitVec.getLsbD_allOnes, BitVec.getLsbD_extractLsb']
  by_cases hp : pos ≤ i
  · simp [hp, Bool.and_comm]
  · simp [hp]

/-- The bitwise-or of an opcode and the other 28 bits at their positions is the format-Z word (R83). -/
theorem or_eq_formatZ (op : BitVec 4) (x : BitVec 28) : (op.setWidth 32 <<< 28 ||| x.setWidth 32 : Word) = op ++ x := by
  apply BitVec.eq_of_getLsbD_eq
  intro i hi
  refine Eq.trans ?_ (getLsbD_formatZ op x i).symm
  rw [BitVec.getLsbD_or, getLsbD_shiftLeft_setWidth _ _ _ (by decide), BitVec.getLsbD_setWidth, decide_eq_true hi]
  split_ifs with h
  · simp [show ¬ 28 ≤ i by omega]
  · simp [show 28 ≤ i by omega, BitVec.getLsbD_of_ge]

/-- A row of the map selects one command: the one whose word is the pattern and the bits the mask leaves free. -/
theorem row_iff {w mask pattern : Word} {i : Instr} (hp : pattern &&& mask = pattern)
    (hi : pattern ||| (w &&& ~~~mask) = encode i) : w &&& mask = pattern ↔ decodeWord w = i := by
  rw [and_mask_eq_iff hp, hi, decodeWord_eq_iff]

/-- A row of format Z leaves no bit free (R83). -/
theorem rowZ_iff {w pattern : Word} {i : Instr} (hi : pattern = encode i) :
    w &&& 0xFFFFFFFF#32 = pattern ↔ decodeWord w = i := by
  refine row_iff (BitVec.and_allOnes) (Eq.trans ?_ hi)
  exact (congrArg (pattern ||| ·) BitVec.and_zero).trans BitVec.or_zero

/-- A row of format S leaves `imm` free (R84). -/
theorem rowS_iff {w : Word} (op : BitVec 4) {i : Instr} (hi : op ++ 0#20 ++ w.extractLsb' 0 8 = encode i) :
    w &&& 0xFFFFFF00#32 = op.setWidth 32 <<< 28 ↔ decodeWord w = i := by
  refine row_iff (by clear hi; revert op; decide) (Eq.trans ?_ hi)
  rw [← or_eq_formatS]
  exact congrArg (_ ||| ·) (and_lowMask w 8)

/-- A row of format M leaves `msel` and `ms` free (R85). -/
theorem rowM_iff {w : Word} (op : BitVec 4) {i : Instr}
    (hi : op ++ 0#1 ++ w.extractLsb' 24 3 ++ 0#4 ++ w.extractLsb' 0 20 = encode i) :
    w &&& 0xF8F00000#32 = op.setWidth 32 <<< 28 ↔ decodeWord w = i := by
  refine row_iff (by clear hi; revert op; decide) (Eq.trans ?_ hi)
  rw [← or_eq_formatM, BitVec.or_assoc, ← and_fieldMask w 24 3 (by decide), ← and_lowMask w 20,
    ← BitVec.and_or_distrib_left]
  rfl

/-- The reserved opcodes leave every other bit free (R89). -/
theorem rowReserved_iff {w : Word} (op : BitVec 4) {i : Instr} (hi : op ++ w.extractLsb' 0 28 = encode i) :
    w &&& 0xF0000000#32 = op.setWidth 32 <<< 28 ↔ decodeWord w = i := by
  refine row_iff (by clear hi; revert op; decide) (Eq.trans ?_ hi)
  rw [← or_eq_formatZ]
  exact congrArg (_ ||| ·) (and_lowMask w 28)

/-- The commands of the fourteen defined rows that have the operands of a word (R88). -/
def rowCommands (w : Word) : List Instr :=
  [.nop 0, .init 0, .seed 0 (w.extractLsb' 24 3) 0 (w.extractLsb' 0 20), .setPower 0 (immField w),
    .setMode 0 (immField w), .setFan 0 (immField w), .setLouver 0 (immField w), .setTemp 0 (immField w),
    .setTurbo 0 (immField w), .setDisplay 0 (immField w), .setHealth 0 (immField w), .setXfan 0 (immField w),
    .setDispmode 0 (immField w), .emit 0]

/-- A word is well-formed exactly when it decodes to the command of a defined row (R88): with the opcode known, both
say that the reserved bits are zero. -/
theorem wellFormed_decodeWord_iff (w : Word) : (decodeWord w).wellFormed = true ↔ decodeWord w ∈ rowCommands w := by
  unfold decodeWord
  split <;> simp [Instr.wellFormed, rowCommands]

/-- Each defined row selects its command (R88). -/
theorem opcodeRows_select (w : Word) :
    List.Forall₂ (fun r i => w &&& r.mask = r.pattern ↔ decodeWord w = i) opcodeRows (rowCommands w) :=
  .cons (rowZ_iff rfl) <| .cons (rowZ_iff rfl) <| .cons (rowM_iff 0x2 rfl) <| .cons (rowS_iff 0x3 rfl) <|
    .cons (rowS_iff 0x4 rfl) <| .cons (rowS_iff 0x5 rfl) <| .cons (rowS_iff 0x6 rfl) <| .cons (rowS_iff 0x7 rfl) <|
    .cons (rowS_iff 0x8 rfl) <| .cons (rowS_iff 0x9 rfl) <| .cons (rowS_iff 0xA rfl) <| .cons (rowS_iff 0xB rfl) <|
    .cons (rowS_iff 0xC rfl) <| .cons (rowZ_iff rfl) .nil

/-- Some row matches a word exactly when the word decodes to the command of a row (R88). -/
theorem matchesRow_iff (w : Word) : matchesRow w = true ↔ decodeWord w ∈ rowCommands w := by
  have rows := opcodeRows_select w
  unfold matchesRow
  generalize opcodeRows = rs, rowCommands w = is at rows
  induction rows with
  | nil => simp
  | cons row _ ih => simp [row, ih]

/-- Settles O3: each row is the row lemma of its format, and the fourteen defined rows together select the
well-formed words. -/
theorem opcodeMapSelectsEachCommand : Obligations.OpcodeMapSelectsEachCommand := by
  intro w
  have rows := opcodeRows_select w
  simp only [opcodeRows, rowCommands, List.forall₂_cons] at rows
  obtain ⟨nop, init, seed, setPower, setMode, setFan, setLouver, setTemp, setTurbo, setDisplay, setHealth, setXfan,
    setDispmode, emit, -⟩ := rows
  exact ⟨nop, init, seed, setPower, setMode, setFan, setLouver, setTemp, setTurbo, setDisplay, setHealth, setXfan,
    setDispmode, emit, rowReserved_iff 0xE rfl, rowReserved_iff 0xF rfl,
    Bool.eq_iff_iff.mpr ((wellFormed_decodeWord_iff w).trans (matchesRow_iff w).symm)⟩

/-! ### The words the spec writes out, and the step that accepts a word -/

/-- Settles O4: the words are evaluated. -/
theorem wordsTheSpecWritesOutDecode : Obligations.WordsTheSpecWritesOutDecode := by
  unfold Obligations.WordsTheSpecWritesOutDecode
  decide

/-- A step with its inputs listed is the edge with those inputs. -/
theorem step_of_inputs {s : State} {p : PortIn} {rest : List PortIn} (hin : s.inputs = p :: rest) :
    step s = clockEdge p (s.withInputs rest) := by
  rw [step, currentInput_cons hin, dropInput_eq, hin, List.tail_cons]

/-- An idle block accepts the word it is offered (R81). -/
theorem commandAccepted_of_idle {p : PortIn} {s : State} (hr : p.rst = false) (hv : p.cmdValid = true)
    (hb : s.busy = false) : commandAccepted p s = true :=
  (commandAccepted_iff p s).mpr ⟨hr, hv, by simp [portOut, cmdReady, hb, hr]⟩

/-- A step that accepts a word is the execution of its command, with the edge's inputs used up (R81). -/
theorem step_of_command {s : State} {p : PortIn} {rest : List PortIn} (hin : s.inputs = p :: rest)
    (hr : p.rst = false) (hv : p.cmdValid = true) (hb : s.busy = false) :
    step s = exec (decodeWord p.cmd) (s.withInputs rest) :=
  (step_of_inputs hin).trans (clockEdge_of_accepted (commandAccepted_of_idle (s := s.withInputs rest) hr hv hb))

/-- Settles O6: the edge accepts the word, and its whole effect is that of the command. -/
theorem stepExecutesTheOfferedCommand : Obligations.StepExecutesTheOfferedCommand := by
  intro s p rest i hin hr hv hb hi
  rw [step_of_command hin hr hv hb, hi]
  rfl

end Sys2Proof.Machine
end

section
/-! SUPPORT. Proofs for 60_exceptions.md section 3 and 10_state.md sections 3 and 5: what one edge does, what it keeps,
and the invariants of reachable states (R47). -/

namespace Sys2Proof.Machine

/-! ### One edge, by its inputs -/

/-- An edge at which the consumer takes the offered item is a transfer (R191). -/
theorem clockEdge_of_transfer {p : PortIn} {s : State} (hr : p.rst = false) (hb : s.busy = true)
    (ht : p.timReady = true) : clockEdge p s = transfer s := by
  simp [clockEdge, hr, commandAccepted_of_busy p hb, itemTransferred, timValid, hb, ht]

/-- An idle edge at which no command is offered changes nothing (R219 c). -/
theorem clockEdge_of_idle {p : PortIn} {s : State} (hr : p.rst = false) (hb : s.busy = false)
    (hv : p.cmdValid = false) : clockEdge p s = .next s := by
  simp [clockEdge, hr, commandAccepted, hv, itemTransferred, timValid, hb]

/-- A step with no input listed is a quiet edge, which changes nothing. -/
theorem step_of_no_inputs {s : State} (hin : s.inputs = []) : step s = .next s := by
  have here : s.currentInput = quietInput := by rw [State.currentInput, hin]; rfl
  have kept : s.dropInput = s := by rw [dropInput_eq, hin]; exact State.ext rfl rfl rfl rfl rfl rfl rfl hin.symm
  rw [step, here, kept]
  cases hb : s.busy with
  | false => exact clockEdge_of_idle rfl hb rfl
  | true => exact clockEdge_of_stall hb rfl rfl

/-- A transfer below the last position advances IDX (R191). -/
theorem transfer_of_lt {s : State} (hb : s.busy = true) (h : s.idx.toNat < 139) :
    transfer s = .next { s with idx := s.idx + 1 } := by
  rw [transfer, lastItem, if_pos h, State.withStream, hb]

/-- The transfer at the last position ends the sequence (R192). -/
theorem transfer_of_eq {s : State} (h : s.idx.toNat = 139) : transfer s = .next { s with busy := false, idx := 0 } := by
  rw [transfer, lastItem, if_neg (by omega), if_pos h, State.withStream]

/-- A transfer above the last position stops by name (log entry 5). -/
theorem transfer_of_gt {s : State} (h : 139 < s.idx.toNat) : transfer s = .fault (.streamIndexOutOfRange s.idx) := by
  rw [transfer, lastItem, if_neg (by omega), if_neg (by omega)]

section
variable {s : State} {p : PortIn} {rest : List PortIn} (hin : s.inputs = p :: rest) (hr : p.rst = false)
include hin hr

/-- An idle step at which no command is offered takes the edge's inputs off the list and changes nothing else. -/
theorem step_of_idle (hb : s.busy = false) (hv : p.cmdValid = false) : step s = .next (s.withInputs rest) :=
  (step_of_inputs hin).trans (clockEdge_of_idle (s := s.withInputs rest) hr hb hv)

/-- A step at which the consumer takes the offered item is a transfer, with the edge's inputs used up (R191). -/
theorem step_of_transfer (hb : s.busy = true) (ht : p.timReady = true) : step s = transfer (s.withInputs rest) :=
  (step_of_inputs hin).trans (clockEdge_of_transfer (s := s.withInputs rest) hr hb ht)

/-- Below the last position the step advances IDX (R191). -/
theorem step_of_transfer_lt (hb : s.busy = true) (ht : p.timReady = true) (hi : s.idx.toNat < 139) :
    step s = .next { s with idx := s.idx + 1, inputs := rest } :=
  (step_of_transfer hin hr hb ht).trans (transfer_of_lt (s := s.withInputs rest) hb hi)

/-- At the last position the step ends the sequence (R192). -/
theorem step_of_transfer_eq (hb : s.busy = true) (ht : p.timReady = true) (hi : s.idx.toNat = 139) :
    step s = .next { s with busy := false, idx := 0, inputs := rest } :=
  (step_of_transfer hin hr hb ht).trans (transfer_of_eq (s := s.withInputs rest) hi)

/-- Above the last position the step stops by name (log entry 5). -/
theorem step_of_transfer_gt (hb : s.busy = true) (ht : p.timReady = true) (hi : 139 < s.idx.toNat) :
    step s = .fault (.streamIndexOutOfRange s.idx) :=
  (step_of_transfer hin hr hb ht).trans (transfer_of_gt (s := s.withInputs rest) hi)

end

/-- Settles O8: one lemma for each kind of edge, in the order of their priority. -/
theorem everyEdgeDoesExactlyOneThing : Obligations.EveryEdgeDoesExactlyOneThing := by
  refine ⟨fun s p rest hin => ?_, fun s => step_of_no_inputs⟩
  split_ifs with hr hb hv ht below last
  · exact step_of_reset hin hr
  all_goals replace hr := eq_false_of_ne_true hr
  · exact step_of_command hin hr hv hb
  · exact step_of_idle hin hr hb (eq_false_of_ne_true hv)
  all_goals replace hb := eq_true_of_ne_false hb
  · exact step_of_transfer_lt hin hr hb ht below
  · exact step_of_transfer_eq hin hr hb ht last
  · exact step_of_transfer_gt hin hr hb ht (by omega)
  · exact step_of_stall hb hr (eq_false_of_ne_true ht) hin

/-! ### All that a step can do -/

/-- A result is one next state at most. -/
theorem next_unique {o : Result} {t u : State} (ht : o = .next t) (hu : o = .next u) : t = u :=
  Host.Outcome.next.inj (ht.symm.trans hu)

/-- Every next state: the block is reset, or a command executes, or at most BUSY and IDX move, and BUSY is not
set (R219). -/
theorem step_next {s t : State} (h : step s = .next t) :
    (s.currentInput.rst = true ∧ t = resetBlock s.dropInput) ∨
    (s.currentInput.rst = false ∧ s.currentInput.cmdValid = true ∧ s.busy = false ∧
      exec (decodeWord s.currentInput.cmd) s.dropInput = .next t) ∨
    (s.currentInput.rst = false ∧ ∃ b i, t = s.dropInput.withStream b i ∧ (b = true → s.busy = true)) := by
  obtain reset | ⟨hr, hv, hb, command⟩ | ⟨hr, hb, -, moved⟩ | ⟨hr, -, -, kept⟩ := clockEdge_next h
  · exact .inl reset
  · exact .inr (.inl ⟨hr, hv, hb, command⟩)
  · obtain ⟨-, rfl⟩ | ⟨-, rfl⟩ := transfer_next moved <;> exact .inr (.inr ⟨hr, _, _, rfl, fun _ => hb⟩)
  · exact .inr (.inr ⟨hr, s.busy, s.idx, kept, id⟩)

/-- Settles O31: of the effects of a command only those of INIT and SET_MODE write MODE. -/
theorem onlySetModeInitOrResetWriteMode : Obligations.OnlySetModeInitOrResetWriteMode := by
  intro s t h changed
  obtain ⟨hr, -⟩ | ⟨-, hv, hb, command⟩ | ⟨-, _, _, rfl, -⟩ := step_next h
  · exact .inl hr
  · refine .inr ⟨hv, hb, ?_⟩
    cases exec_next command with
    | constructed hi => exact .inl hi
    | selected imm v hi => exact .inr ⟨imm, hi⟩
    | _ => exact absurd rfl changed
  · exact absurd rfl changed

/-- Settles O32: SEED writes the record it names, a per-mode setter the active one, INIT and SET_HEALTH all five. -/
theorem inactiveRecordsKeepTheirValue : Obligations.InactiveRecordsKeepTheirValue := by
  intro s t m h inactive changed
  obtain ⟨hr, -⟩ | ⟨-, hv, hb, command⟩ | ⟨-, _, _, rfl, -⟩ := step_next h
  · exact .inl hr
  · refine .inr ⟨hv, hb, ?_⟩
    cases exec_next command with
    | constructed hi => exact .inl hi
    | broadcast imm hi => exact .inr (.inr ⟨imm, hi⟩)
    | seeded n ms hi =>
      obtain rfl : m = n := by_contra fun other => changed (ModeFile.get_set_other _ _ other)
      exact .inr (.inl ⟨ms, hi⟩)
    | wrote g n _ _ hn =>
      have other : m ≠ n := fun e => inactive (e ▸ hn)
      exact absurd (ModeFile.get_set_other _ _ other) changed
    | _ => exact absurd rfl changed
  · exact absurd rfl changed

/-- Settles O33: while BUSY no command has an effect, and of the effects of a command only EMIT's sets BUSY. -/
theorem busyFreezesTheController : Obligations.BusyFreezesTheController := by
  refine ⟨fun s t h hb hr => ?_, fun s t h hb started => ?_⟩
  · obtain ⟨reset, -⟩ | ⟨-, -, idle, -⟩ | ⟨-, _, _, rfl, -⟩ := step_next h
    · simp [hr] at reset
    · simp [hb] at idle
    · exact ⟨rfl, rfl, rfl, rfl, rfl⟩
  · obtain ⟨-, rfl⟩ | ⟨-, hv, -, command⟩ | ⟨-, _, _, rfl, stays⟩ := step_next h
    · cases started
    · have idle : s.dropInput.busy ≠ true := ne_true_of_eq_false hb
      cases exec_next command with
      | started hi => exact ⟨hv, hi, rfl⟩
      | _ => exact absurd started idle
    · exact absurd (stays started) (ne_true_of_eq_false hb)

/-- Settles O30: a command without a cause keeps ERR and ERRC, and one with a cause keeps both where ERR is set. -/
theorem onlyAFaultingWordSetsErr : Obligations.OnlyAFaultingWordSetsErr := by
  intro s t h changed
  obtain ⟨hr, rfl⟩ | ⟨-, hv, hb, command⟩ | ⟨-, _, _, rfl, -⟩ := step_next h
  · exact .inl ⟨hr, rfl, rfl⟩
  · cases hc : faultCode (decodeWord s.currentInput.cmd) with
    | none =>
      obtain ⟨herr, herrc⟩ := exec_keeps_err hc command
      exact absurd changed (not_or_intro (not_not_intro herr) (not_not_intro herrc))
    | some c =>
      obtain rfl : t = afterFault c s.dropInput := next_unique command (exec_of_faultCode hc _)
      cases he : s.err with
      | true => simp [afterFault, dropInput_eq, he] at changed
      | false =>
        have first : (afterFault c s.dropInput).errc = c := if_neg (ne_true_of_eq_false he)
        exact .inr ⟨hv, hb, rfl, c, (wordCause_eq_faultCode _).trans hc, rfl, first⟩
  · exact absurd changed (not_or_intro (not_not_intro rfl) (not_not_intro rfl))

/-! ### The invariants of reachable states -/

/-- The fault flag and its cause go together (R47). -/
theorem takeFault_keeps_inv {s : State} (c : Cause) (h : s.Inv) : (takeFault c s).Inv := by
  obtain ⟨hmode, hidx, hidle, herr⟩ := h
  refine ⟨hmode, hidx, hidle, ?_⟩
  cases he : s.err with
  | false => cases c <;> simp [he, causeCode]
  | true => simpa [he] using herr

/-- An operand that SET_MODE accepts is in range (R122). -/
theorem immMode_le {imm : BitVec 8} {v : BitVec 3} (h : immMode imm = some v) : v.toNat ≤ 4 := by
  unfold immMode at h
  split_ifs at h with big
  cases h
  rw [BitVec.extractLsb'_toNat]
  omega

/-- No command breaks the invariants (R47). -/
theorem commandEffect_keeps_inv {i : Instr} {s t : State} (h : s.Inv) (effect : CommandEffect i s t) : t.Inv := by
  have ⟨hmode, hidx, hidle, herr⟩ := h
  cases effect with
  | faulted c => exact takeFault_keeps_inv c h
  | constructed => exact ⟨Nat.zero_le _, hidx, hidle, herr⟩
  | selected imm v _ hv => exact ⟨immMode_le hv, hidx, hidle, herr⟩
  | started => exact ⟨hmode, Nat.zero_le _, fun idle => absurd idle.symm Bool.false_ne_true, herr⟩
  | _ => exact h

/-- No transfer breaks the invariants (R47). -/
theorem transfer_keeps_inv {s t : State} (h : s.Inv) (moved : transfer s = .next t) : t.Inv := by
  obtain ⟨hmode, hidx, hidle, herr⟩ := h
  obtain ⟨below, rfl⟩ | ⟨-, rfl⟩ := transfer_next moved
  · have advanced : (s.idx + 1).toNat ≤ 139 := by bv_omega
    exact ⟨hmode, advanced, fun idle => absurd idle.symm Bool.false_ne_true, herr⟩
  · exact ⟨hmode, Nat.zero_le _, fun _ => rfl, herr⟩

/-- Settles O34: the reset values are evaluated. -/
theorem invariantsHoldAtReset : Obligations.InvariantsHoldAtReset := by
  unfold Obligations.InvariantsHoldAtReset
  decide

/-- Settles O35: a reset leads to the reset values, and neither a command nor a transfer breaks the invariants. -/
theorem everyStepKeepsTheInvariants : Obligations.EveryStepKeepsTheInvariants := by
  intro s t h hstep
  have before : s.dropInput.Inv := h
  obtain ⟨-, rfl⟩ | ⟨-, -, -, command⟩ | ⟨-, -, -, moved⟩ | ⟨-, -, -, rfl⟩ := clockEdge_next hstep
  · exact invariantsHoldAtReset
  · exact commandEffect_keeps_inv before (exec_next command)
  · exact transfer_keeps_inv before moved
  · exact before

/-! ### No step stops -/

/-- Where MODE selects a record, every command answers with a next state: its fault, if it has a cause, is one. -/
theorem exec_total (i : Instr) {s : State} (h : s.mode.toNat ≤ 4) : ∃ t, exec i s = .next t := by
  obtain ⟨m, hm⟩ := exists_mode_of_le h
  cases hc : faultCode i with
  | some c => exact ⟨_, exec_of_faultCode hc s⟩
  | none =>
    obtain ⟨-, hw, hrange⟩ := faultCode_eq_none.mp hc
    cases i with
    | setFan | setLouver | setTemp | setTurbo | setDisplay | setXfan | setDispmode =>
      exact ⟨_, exec_fieldWrite_of_ordinal _ rfl hw hm⟩
    | reservedE | reservedF => cases hw
    | setMode rsv imm =>
      obtain rfl : rsv = 0 := by simpa [Instr.wellFormed] using hw
      exact ⟨_, exec_setMode_in_range s hrange⟩
    | seed hi msel lo ms =>
      obtain ⟨rfl, rfl⟩ : hi = 0 ∧ lo = 0 := by simpa [Instr.wellFormed] using hw
      obtain ⟨n, rfl⟩ := exists_mode_of_le hrange
      exact ⟨_, exec_seed_ordinal n ms s⟩
    | nop rsv | init rsv | setPower rsv | setHealth rsv | emit rsv =>
      obtain rfl : rsv = 0 := by simpa [Instr.wellFormed] using hw
      exact ⟨_, rfl⟩

/-- Settles O36: of what an edge can do only a command and a transfer can stop, a command only where MODE selects no
record, a transfer only where IDX is above 139. -/
theorem noStepStopsWhereTheInvariantsHold : Obligations.NoStepStopsWhereTheInvariantsHold := by
  rintro s ⟨hmode, hidx, -, -⟩
  cases hin : s.inputs with
  | nil => exact ⟨s, step_of_no_inputs hin⟩
  | cons p rest =>
    rw [everyEdgeDoesExactlyOneThing.1 s p rest hin]
    split_ifs with hr hb hv ht below last
    · exact ⟨_, rfl⟩
    · exact exec_total _ hmode
    · exact ⟨_, rfl⟩
    · exact ⟨_, rfl⟩
    · exact ⟨_, rfl⟩
    · omega
    · exact ⟨_, rfl⟩

end Sys2Proof.Machine
end

section
/-! SUPPORT. Proofs for 41_setters.md: what the commands leave unchanged, the views after a setter, and the laws of
the setters (R120, R134). -/

namespace Sys2Proof.Machine

/-! ### The seven per-mode setters -/

/-- Each per-mode setter of the list is a write to the field its entry names, behind the check of its reserved bits. -/
theorem fieldWrite_of_mem_perModeSetters {rsv : BitVec 20} {imm : BitVec 8} {e : Instr × (ModeState → ModeState → Prop)}
    (he : e ∈ perModeSetters rsv imm) :
    e.1.wellFormed = (rsv == 0) ∧ (∀ r, e.2 r r) ∧ ∃ g, fieldWrite e.1 = some g ∧ ∀ r, e.2 r (g r) := by
  simp only [perModeSetters, List.mem_cons, List.not_mem_nil, or_false] at he
  obtain rfl | rfl | rfl | rfl | rfl | rfl | rfl := he <;> exact ⟨rfl, fun _ => rfl, _, rfl, fun _ => rfl⟩

/-- The write of the active record stops where MODE selects none (log entry 4). -/
theorem writeActive_of_no_record (g : ModeState → ModeState) {s : State} (h : 4 < s.mode.toNat) :
    writeActive g s = .fault (.noModeState s.mode) := by
  rw [writeActive, modeOfOrdinal_eq_none.mpr h]

/-- Settles O27: past the check of its reserved bits a per-mode setter writes the active record. -/
theorem perModeSetterWithoutRecordStops : Obligations.PerModeSetterWithoutRecordStops := by
  intro imm s h e he
  obtain ⟨hw, -, g, hg, -⟩ := fieldWrite_of_mem_perModeSetters he
  rw [exec_fieldWrite hg, hw]
  exact writeActive_of_no_record g h

/-- Settles O37: a per-mode setter writes one field of one record, or faults. -/
theorem frameOfPerModeSetters : Obligations.FrameOfPerModeSetters := by
  intro rsv imm s t e he h
  obtain ⟨hw, same, g, hg, writes⟩ := fieldWrite_of_mem_perModeSetters he
  rw [exec_fieldWrite hg, hw] at h
  obtain ⟨hr, h⟩ | ⟨hr, rfl⟩ := unlessReserved_next h
  · obtain ⟨n, hn, rfl⟩ := writeActive_next h
    refine ⟨rfl, rfl, rfl, rfl, rfl, fun m inactive => ?_, fun m hm => ?_, fun _ => ⟨rfl, rfl⟩,
      fun nonzero => absurd (beq_iff_eq.mp hr) nonzero⟩
    · exact ModeFile.get_set_other _ _ fun e => inactive (e ▸ hn)
    · obtain rfl := modeOrdinal_injective.mp (hm.symm.trans hn)
      rw [State.withMs_ms, ModeFile.get_set_same]
      exact writes _
  · exact ⟨rfl, rfl, rfl, rfl, rfl, fun _ _ => rfl, fun _ _ => same _,
      fun zero => absurd zero (beq_eq_false_iff_ne.mp hr), fun _ => rfl⟩

/-! ### The other nine commands -/

/-- Settles O38: each command's own lemma names the fields it writes. -/
theorem frameOfTheOtherCommands : Obligations.FrameOfTheOtherCommands := by
  intro s t
  refine ⟨fun h => ?_, fun h => ?_, fun m ms h => ?_, fun imm h => ?_, fun imm hi h => ?_, fun imm h => ?_, fun h => ?_,
    fun rest h => ?_, fun rest h => ?_⟩
  · obtain rfl := next_unique h (exec_nop_zero ..)
    rfl
  · obtain rfl := next_unique h (exec_init_zero ..)
    exact ⟨rfl, rfl, rfl, rfl, rfl⟩
  · obtain rfl := next_unique h (exec_seed_ordinal ..)
    exact ⟨rfl, fun n other => ModeFile.get_set_other _ _ other⟩
  · obtain rfl := next_unique h (exec_setPower_zero ..)
    rfl
  · obtain rfl := next_unique h (exec_setMode_in_range s hi)
    rfl
  · obtain rfl := next_unique h (exec_setHealth_zero ..)
    exact ⟨rfl, fun m => by simp⟩
  · obtain rfl := next_unique h (exec_emit_zero ..)
    rfl
  · obtain rfl := next_unique h (exec_reservedE ..)
    rfl
  · obtain rfl := next_unique h (exec_reservedF ..)
    rfl

/-! ### The views after a setter -/

/-- After a per-mode setter each field of the active record is that of the written record. -/
theorem field_after_fieldWrite {α : Type} {g : ModeState → ModeState} {s : State} {m : Mode} (i : Instr)
    (field : ModeState → α) (hm : s.mode = modeOrdinal m) (hg : fieldWrite i = some g) (hw : i.wellFormed = true) :
    ∃ t, exec i s = .next t ∧ field t.activeRecord = field (g (s.ms.get m)) :=
  ⟨_, exec_fieldWrite_of_ordinal i hg hw hm, congrArg field (activeRecord_withMs_set _ hm)⟩

/-- A change made to all five records is made to the active one (R130). -/
theorem activeRecord_withMs_mapAll {s : State} {m : Mode} (g : ModeState → ModeState) (hm : s.mode = modeOrdinal m) :
    (s.withMs (s.ms.mapAll g)).activeRecord = g (s.ms.get m) :=
  (activeRecord_of_ordinal (s := s.withMs (s.ms.mapAll g)) hm).trans (ModeFile.get_mapAll s.ms g m)

/-- Settles O40: the views read POWER, MODE and the active record, which a per-mode setter has written. -/
theorem viewsShowWhatASetterWrote : Obligations.ViewsShowWhatASetterWrote := by
  intro s m imm rst sw hm
  refine ⟨⟨_, exec_setPower_zero imm s, rfl⟩, fun hi => ⟨_, exec_setMode_in_range s hi, ?_⟩,
    (field_after_fieldWrite (.setFan 0 imm) ModeState.fan hm rfl rfl :),
    (field_after_fieldWrite (.setLouver 0 imm) ModeState.louver hm rfl rfl :),
    (field_after_fieldWrite (.setTemp 0 imm) ModeState.temp hm rfl rfl :),
    (field_after_fieldWrite (.setTurbo 0 imm) ModeState.turbo hm rfl rfl :),
    (field_after_fieldWrite (.setDisplay 0 imm) ModeState.display hm rfl rfl :),
    ⟨_, exec_setHealth_zero imm s, congrArg ModeState.health (activeRecord_withMs_mapAll _ hm)⟩,
    (field_after_fieldWrite (.setXfan 0 imm) ModeState.xfan hm rfl rfl :),
    (field_after_fieldWrite (.setDispmode 0 imm) ModeState.dispmode hm rfl rfl :)⟩
  -- `mode_o` is three bits of `imm`, and a value up to 4 has no more.
  exact (BitVec.extractLsb'_toNat ..).trans (Nat.mod_eq_of_lt (by rw [Nat.shiftRight_zero]; omega))

end Sys2Proof.Machine
end

section
/-! SUPPORT. Proofs for 41_setters.md section 1: every setter is idempotent, and setters of different fields commute
(R120, R134 e). -/

namespace Sys2Proof.Machine

/-! ### Setters as data -/

/-- The change a setter makes to each record it writes, and none where it writes a register (R121 to R132). -/
def Setter.writeField (f : Setter) (imm : BitVec 8) (r : ModeState) : ModeState :=
  match f with
  | .power | .mode => r
  | .fan => { r with fan := immTwo imm }
  | .louver => { r with louver := immFour imm }
  | .temp => { r with temp := immEight imm }
  | .turbo => { r with turbo := immBit imm }
  | .display => { r with display := immBit imm }
  | .health => { r with health := immBit imm }
  | .xfan => { r with xfan := immBit imm }
  | .dispmode => { r with dispmode := immTwo imm }

theorem writeField_idem (f : Setter) (imm : BitVec 8) (r : ModeState) :
    f.writeField imm (f.writeField imm r) = f.writeField imm r := by
  cases f <;> rfl

theorem writeField_comm {f g : Setter} (h : f ≠ g) (x y : BitVec 8) (r : ModeState) :
    f.writeField x (g.writeField y r) = g.writeField y (f.writeField x r) := by
  cases f <;> cases g <;> first | rfl | exact absurd rfl h

/-- A setter either does nothing but fault with cause 2, or has its reserved bits zero (R90). -/
theorem setter_cases {i : Instr} {f : Setter} (h : setterOf i = some f) :
    (∀ s, exec i s = .next (afterFault 2 s)) ∨ ∃ imm, i = setterInstr f imm := by
  cases i with
  | setPower rsv imm | setMode rsv imm | setFan rsv imm | setLouver rsv imm | setTemp rsv imm | setTurbo rsv imm
  | setDisplay rsv imm | setHealth rsv imm | setXfan rsv imm | setDispmode rsv imm =>
    cases h
    obtain rfl | hr := eq_or_ne rsv 0
    · exact .inr ⟨imm, rfl⟩
    · exact .inl fun s => unlessReserved_of_ne_zero s _ hr
  | _ => cases h

/-- The setters that write neither a register nor all five records write the active record (R123). -/
theorem exec_setterInstr_perMode {f : Setter} (hp : f ≠ .power) (hm : f ≠ .mode) (hh : f ≠ .health) (imm : BitVec 8)
    (s : State) : exec (setterInstr f imm) s = writeActive (f.writeField imm) s := by
  cases f with
  | power => exact absurd rfl hp
  | mode => exact absurd rfl hm
  | health => exact absurd rfl hh
  | _ => rfl

/-- SET_HEALTH is the write of health to every record (R130). -/
theorem exec_setterInstr_health (imm : BitVec 8) (s : State) :
    exec (setterInstr .health imm) s = .next (s.withMs (s.ms.mapAll (Setter.health.writeField imm))) := rfl

/-! ### Idempotence -/

/-- A second fault of the same cause changes nothing (R213). -/
theorem afterFault_afterFault (c : BitVec 2) (s : State) : afterFault c (afterFault c s) = afterFault c s := rfl

/-- The write of the active record after another write of the file (R123). -/
theorem writeActive_withMs (g : ModeState → ModeState) {s : State} {m : Mode} (f : ModeFile)
    (hm : s.mode = modeOrdinal m) :
    writeActive g (s.withMs f) = .next (s.withMs (f.set m (g (f.get m)))) :=
  writeActive_of_ordinal (s := s.withMs f) g hm

/-- A change that is idempotent on a record is idempotent as a write of the active record. -/
theorem writeActive_idem {g : ModeState → ModeState} (hg : ∀ r, g (g r) = g r) {s t : State}
    (h : writeActive g s = .next t) : writeActive g t = .next t := by
  obtain ⟨m, hm, rfl⟩ := writeActive_next h
  rw [writeActive_withMs g _ hm, ModeFile.get_set_same, ModeFile.set_set, hg]

theorem ModeFile.mapAll_idem {g : ModeState → ModeState} (hg : ∀ r, g (g r) = g r) (f : ModeFile) :
    (f.mapAll g).mapAll g = f.mapAll g :=
  ModeFile.ext_get fun m => by simp [hg]

/-- Settles O41: a fault of the same cause, and a write of the same operand, repeat what the first left. -/
theorem settersAreIdempotent : Obligations.SettersAreIdempotent := by
  intro i s t hi h
  obtain ⟨f, hf⟩ := Option.isSome_iff_exists.mp hi
  obtain faults | ⟨imm, rfl⟩ := setter_cases hf
  · obtain rfl := next_unique h (faults s)
    exact (faults _).trans (congrArg _ (afterFault_afterFault 2 s))
  · by_cases hp : f = .power
    · subst hp
      obtain rfl := next_unique h (exec_setPower_zero imm s)
      exact exec_setPower_zero imm _
    by_cases hm : f = .mode
    · subst hm
      obtain high | low := Nat.lt_or_ge 4 imm.toNat
      · obtain rfl := next_unique h (exec_setMode_out_of_range s high)
        exact (exec_setMode_out_of_range _ high).trans (congrArg _ (afterFault_afterFault 3 s))
      · obtain rfl := next_unique h (exec_setMode_in_range s low)
        exact exec_setMode_in_range _ low
    by_cases hh : f = .health
    · subst hh
      obtain rfl := next_unique h (exec_setterInstr_health imm s)
      rw [exec_setterInstr_health, State.withMs_ms, ModeFile.mapAll_idem (writeField_idem .health imm)]
      rfl
    · rw [exec_setterInstr_perMode hp hm hh] at h ⊢
      exact writeActive_idem (writeField_idem f imm) h

/-! ### Commutation -/

/-- Two commands leave the same, in either order and from any state. -/
def CommandsCommute (i j : Instr) : Prop := ∀ s, andThen (exec i s) (exec j) = andThen (exec j s) (exec i)

theorem CommandsCommute.symm {i j : Instr} (h : CommandsCommute i j) : CommandsCommute j i := fun s => (h s).symm

/-- A command that only faults commutes with one that has no cause: neither reads what the other writes (R213, R216). -/
theorem commute_of_fault {i j : Instr} {c : BitVec 2} (hi : ∀ s, exec i s = .next (afterFault c s))
    (hj : faultCode j = none) : CommandsCommute i j := by
  intro s
  rw [hi s]
  refine (exec_withErr hj s true (if s.err then s.errc else c)).trans ?_
  cases h : exec j s with
  | next t =>
    obtain ⟨herr, herrc⟩ := exec_keeps_err hj h
    simp only [andThen, hi, afterFault, State.withErr, herr, herrc]
  | fault | refused => rfl

/-- Writes of the active record commute where the changes of a record do. -/
theorem writeActive_comm {g k : ModeState → ModeState} (h : ∀ r, g (k r) = k (g r)) (s : State) :
    andThen (writeActive g s) (writeActive k) = andThen (writeActive k s) (writeActive g) := by
  obtain absent | present := Nat.lt_or_ge 4 s.mode.toNat
  · rw [writeActive_of_no_record g absent, writeActive_of_no_record k absent]
    rfl
  · obtain ⟨m, hm⟩ := exists_mode_of_le present
    rw [writeActive_of_ordinal g hm, writeActive_of_ordinal k hm, andThen, andThen, writeActive_withMs k _ hm,
      writeActive_withMs g _ hm, ModeFile.get_set_same, ModeFile.get_set_same, ModeFile.set_set, ModeFile.set_set, h]

/-- A change of all five records after the write of one. -/
theorem ModeFile.mapAll_set (f : ModeFile) (m : Mode) (r : ModeState) (g : ModeState → ModeState) :
    (f.set m r).mapAll g = (f.mapAll g).set m (g r) := by
  cases m <;> rfl

/-- A broadcast and a write of the active record commute where the changes of a record do. -/
theorem writeActive_mapAll_comm {g k : ModeState → ModeState} (h : ∀ r, g (k r) = k (g r)) (s : State) :
    writeActive g (s.withMs (s.ms.mapAll k)) = andThen (writeActive g s) fun t => .next (t.withMs (t.ms.mapAll k)) := by
  obtain absent | present := Nat.lt_or_ge 4 s.mode.toNat
  · rw [writeActive_of_no_record g absent]
    exact writeActive_of_no_record (s := s.withMs (s.ms.mapAll k)) g absent
  · obtain ⟨m, hm⟩ := exists_mode_of_le present
    rw [writeActive_withMs g _ hm, writeActive_of_ordinal g hm, andThen, State.withMs_ms, ModeFile.mapAll_set,
      ModeFile.get_mapAll, h]
    rfl

/-- SET_POWER commutes with every setter but itself and SET_MODE: neither reads what the other writes (R121). -/
theorem commute_setPower {f : Setter} (hp : f ≠ .power) (hm : f ≠ .mode) (x y : BitVec 8) :
    CommandsCommute (.setPower 0 x) (setterInstr f y) := by
  intro s
  rw [exec_setPower_zero, andThen]
  obtain rfl | hh := eq_or_ne f .health
  · rfl
  · rw [exec_setterInstr_perMode hp hm hh, exec_setterInstr_perMode hp hm hh, writeActive, writeActive,
      State.withPower_mode]
    split <;> rfl

/-- SET_HEALTH commutes with the per-mode setters (R130). -/
theorem commute_setHealth {f : Setter} (hp : f ≠ .power) (hm : f ≠ .mode) (hh : f ≠ .health) (x y : BitVec 8) :
    CommandsCommute (setterInstr .health x) (setterInstr f y) := by
  intro s
  rw [exec_setterInstr_health, andThen, exec_setterInstr_perMode hp hm hh, exec_setterInstr_perMode hp hm hh]
  exact writeActive_mapAll_comm (writeField_comm hh y x) s

/-- Setters of different fields with their reserved bits zero commute. -/
theorem commute_setterInstr {f g : Setter} (hfg : f ≠ g) (hf : f ≠ .mode) (hg : g ≠ .mode) (x y : BitVec 8) :
    CommandsCommute (setterInstr f x) (setterInstr g y) := by
  obtain rfl | hfp := eq_or_ne f .power
  · exact commute_setPower hfg.symm hg x y
  obtain rfl | hgp := eq_or_ne g .power
  · exact (commute_setPower hfg hf y x).symm
  obtain rfl | hfh := eq_or_ne f .health
  · exact commute_setHealth hgp hg hfg.symm x y
  obtain rfl | hgh := eq_or_ne g .health
  · exact (commute_setHealth hfp hf hfg y x).symm
  intro s
  rw [exec_setterInstr_perMode hfp hf hfh, exec_setterInstr_perMode hgp hg hgh,
    funext (exec_setterInstr_perMode hfp hf hfh x), funext (exec_setterInstr_perMode hgp hg hgh y)]
  exact writeActive_comm (writeField_comm hfg x y) s

/-- A setter other than SET_MODE has no cause once its reserved bits are zero (R210). -/
theorem faultCode_setterInstr {f : Setter} (hf : f ≠ .mode) (imm : BitVec 8) :
    faultCode (setterInstr f imm) = none := by
  cases f with
  | mode => exact absurd rfl hf
  | _ => rfl

/-- Settles O42: the only fault of these setters is that of a reserved bit, and it commutes with every command that
has no cause. -/
theorem settersOfDifferentFieldsCommute : Obligations.SettersOfDifferentFieldsCommute := by
  intro i j f g s hi hj hfg hf hg
  obtain faultsI | ⟨x, rfl⟩ := setter_cases hi <;> obtain faultsJ | ⟨y, rfl⟩ := setter_cases hj
  · rw [faultsI, faultsJ, funext faultsI, funext faultsJ]
  · exact commute_of_fault faultsI (faultCode_setterInstr hg y) s
  · exact (commute_of_fault faultsJ (faultCode_setterInstr hf x)).symm s
  · exact commute_setterInstr hfg hf hg x y s

end Sys2Proof.Machine
end

section
/-! SUPPORT. Proofs for 40_construct.md section 1: the pseudo-instruction CONSTRUCT (R95, R110). -/

namespace Sys2Proof.Machine

/-- The SEED commands of the supplied records, in the order of the modes listed. -/
def seeds (entries : Mode → Option ModeState) (modes : List Mode) : List Instr :=
  modes.filterMap fun m => (entries m).map fun r => .seed 0 (modeOrdinal m) 0 (pack r)

theorem seeds_cons_of_none {entries : Mode → Option ModeState} {m : Mode} (h : entries m = none) (modes : List Mode) :
    seeds entries (m :: modes) = seeds entries modes := by
  simp [seeds, h]

theorem seeds_cons_of_some {entries : Mode → Option ModeState} {m : Mode} {r : ModeState} (h : entries m = some r)
    (modes : List Mode) : seeds entries (m :: modes) = .seed 0 (modeOrdinal m) 0 (pack r) :: seeds entries modes := by
  simp [seeds, h]

/-- A line that seeds a mode with a record assembles to the packed record (R86, R94). -/
theorem assemble_seedLine (m : Mode) (r : ModeState) :
    assemble (seedLine m r) = some (.seed 0 (modeOrdinal m) 0 (pack r)) := by
  have bit (b : Bool) : (b.toNat == 1) = b := by cases b <;> rfl
  have hm := modeOrdinal_le m
  have hl := r.louver.isLt
  have ht := r.temp.isLt
  have hf := r.fan.isLt
  have hd := r.dispmode.isLt
  have hb (b : Bool) := b.toNat_le
  simp only [seedLine, assemble, bit, BitVec.ofNat_toNat, BitVec.setWidth_eq]
  exact if_pos ⟨by omega, by omega, by omega, by omega, hb _, hb _, hb _, hb _, by omega⟩

/-- The lines of CONSTRUCT after the first assemble to the SEED commands of the supplied records. -/
theorem mapM_assemble_seedLines (entries : Mode → Option ModeState) (modes : List Mode) :
    (modes.filterMap fun m => (entries m).map (seedLine m)).mapM assemble = some (seeds entries modes) := by
  induction modes with
  | nil => rfl
  | cons m modes ih =>
    cases h : entries m with
    | none => rw [seeds_cons_of_none h, List.filterMap_cons_none (by rw [h]; rfl), ih]
    | some r =>
      rw [seeds_cons_of_some h, List.filterMap_cons_some (by rw [h]; rfl), List.mapM_cons, assemble_seedLine, ih]
      rfl

/-- The SEED commands of the supplied records write those records and nothing else (R112). -/
theorem execAll_seeds (entries : Mode → Option ModeState) (modes : List Mode) (s : State) :
    ∃ f, execAll (seeds entries modes) s = .next (s.withMs f) ∧
      ∀ m, f.get m = if m ∈ modes then (entries m).getD (s.ms.get m) else s.ms.get m := by
  induction modes generalizing s with
  | nil => exact ⟨s.ms, rfl, fun _ => rfl⟩
  | cons n modes ih =>
    cases h : entries n with
    | none =>
      obtain ⟨f, runs, records⟩ := ih s
      refine ⟨f, by rw [seeds_cons_of_none h, runs], fun m => ?_⟩
      obtain rfl | other := eq_or_ne m n
      · simp [records, h]
      · simp [records, other]
    | some r =>
      obtain ⟨f, runs, records⟩ := ih (s.withMs (s.ms.set n r))
      refine ⟨f, ?_, fun m => ?_⟩
      · rw [seeds_cons_of_some h, execAll, exec_seed_ordinal, unpack_pack, andThen, runs]
        rfl
      obtain rfl | other := eq_or_ne m n
      · simp [records, h]
      · simp [records, other, ModeFile.get_set_other _ _ other]

/-- Settles O43: INIT gives every record its default, and each SEED then writes one supplied record. -/
theorem constructGivesSuppliedOrDefaultRecords : Obligations.ConstructGivesSuppliedOrDefaultRecords := by
  intro entries s
  have assembles : (construct entries).mapM assemble = some (.init 0 :: seeds entries allModes) := by
    rw [construct, List.mapM_cons, mapM_assemble_seedLines]
    rfl
  obtain ⟨f, runs, records⟩ := execAll_seeds entries allModes (((s.withMs defaultFile).withPower false).withMode 0)
  refine ⟨_, _, assembles, runs, fun m => ?_, rfl⟩
  have listed : m ∈ allModes := by cases m <;> decide
  simpa [listed] using records m

end Sys2Proof.Machine
end

section
/-! SUPPORT. Proofs for 42_frame_serializer.md sections 4 and 5: the output words bit by bit, and how the frame depends
on the state. -/

namespace Sys2Proof.Machine

/-! ### The output words bit by bit -/

/-- The swing flag tells whether the louver code is in SWING_SET (R147). -/
theorem swing_word0 (sw : List (BitVec 4)) (power : Bool) (mode : BitVec 3) (a : ModeState) :
    (word0 sw power mode a).getLsbD 6 = true ↔ a.louver ∈ sw := by
  rw [getLsbD_word0, getLsbD_word0Fields]
  exact decide_eq_true_iff

section
variable (s : State) (sw : List (BitVec 4)) {i j : Nat}

/-- A bit of `bits_b0` is the bit of word 0 it is reversed from (R174). -/
theorem getLsbD_b0 (h : i + j = 31) :
    (s.bits sw).b0.getLsbD i = (word0 sw s.power s.mode s.activeRecord).getLsbD j := by
  obtain rfl : j = 31 - i := by omega
  exact getLsbD_rev32 _ (by omega)

/-- A bit of `bits_b1` is the bit of word 1 it is reversed from (R174). -/
theorem getLsbD_b1 (h : i + j = 31) : (s.bits sw).b1.getLsbD i = (word1 s.mode s.activeRecord).getLsbD j := by
  obtain rfl : j = 31 - i := by omega
  exact getLsbD_rev32 _ (by omega)

end

/-- Settles O46: each row of the table is a row of the bits of the word before reversal. -/
theorem outputWordsBitByBit : Obligations.OutputWordsBitByBit := by
  intro sw s m hm
  rw [← activeRecord_of_ordinal hm]
  intro b0 b1 a t chk
  have word0Bit {i : Nat} (j : Nat) (h : i + j = 31) : b0.getLsbD i = (word0 sw s.power s.mode a).getLsbD j :=
    getLsbD_b0 s sw h
  have word1Bit {i : Nat} (j : Nat) (h : i + j = 31) : b1.getLsbD i = (word1 s.mode a).getLsbD j := getLsbD_b1 s sw h
  obtain ⟨power, turbo, display, health, xfan⟩ := bitFields_word0 sw s.power s.mode a
  obtain ⟨flag28, flag29, flag30, flag31⟩ := flags_word0 sw s.power s.mode a
  refine ⟨fun i hi => (word0Bit i (by omega)).trans ?_, (word0Bit 3 rfl).trans power,
    fun i hi => (word0Bit (4 + i) (by omega)).trans ?_, word0Bit 6 rfl ▸ swing_word0 .., (word0Bit 7 rfl).trans ?_,
    fun i hi => (word0Bit (8 + i) (by omega)).trans ?_, fun i h1 h2 => (word0Bit (31 - i) (by omega)).trans ?_,
    (word0Bit 20 rfl).trans turbo, (word0Bit 21 rfl).trans display, (word0Bit 22 rfl).trans health,
    (word0Bit 23 rfl).trans xfan, fun i h1 h2 => (word0Bit (31 - i) (by omega)).trans ?_,
    (word0Bit 28 rfl).trans flag28, (word0Bit 29 rfl).trans flag29, (word0Bit 30 rfl).trans flag30, (word0Bit 31 rfl).trans flag31,
    fun i hi => (word1Bit i (by omega)).trans ?_, fun i h1 h2 => (word1Bit (31 - i) (by omega)).trans ?_,
    fun i hi => (word1Bit (8 + i) (by omega)).trans ?_, fun i h1 h2 => (word1Bit (31 - i) (by omega)).trans ?_,
    fun i hi => (word1Bit (28 + i) (by omega)).trans ?_⟩
  all_goals
    simp (disch := omega) only [getLsbD_word0, getLsbD_word0Fields, getLsbD_word1, if_pos, if_neg,
      Nat.add_sub_cancel_left, decide_eq_false]
  · rw [tempField_eq_extractLsb']
  · rfl

/-! ### POWER alone -/

/-- Word 0 with power on and with power off differ at bits 31 and 3, and at bit 22 by the health (R145, R152, R153). -/
theorem word0_xor_power (sw : List (BitVec 4)) (mode : BitVec 3) (a : ModeState) :
    word0 sw true mode a ^^^ word0 sw false mode a =
      bitValue 32 true <<< 31 ||| bitValue 32 true <<< 3 ||| bitValue 32 a.health <<< 22 := by
  refine BitVec.eq_of_getLsbD_eq fun i hi => ?_
  rw [BitVec.getLsbD_xor, BitVec.getLsbD_or, BitVec.getLsbD_or, getLsbD_shiftLeft_bitValue _ 31 i (by decide),
    getLsbD_shiftLeft_bitValue _ 3 i (by decide), getLsbD_shiftLeft_bitValue _ 22 i (by decide), getLsbD_word0,
    getLsbD_word0, getLsbD_word0Fields, getLsbD_word0Fields]
  by_cases h22 : i = 22
  · simp [h22]
  by_cases h31 : i = 31
  · simp [h31]
  by_cases h3 : i = 3
  · simp [h3]
  · simp [h22, h31, h3]

/-- Settles O47: POWER enters word 0 alone, and there at these bits alone. -/
theorem powerChangesThreeBitsAtMost : Obligations.PowerChangesThreeBitsAtMost := by
  intro sw s m hm
  refine ⟨(word0_xor_power sw s.mode s.activeRecord).trans ?_, rfl⟩
  rw [activeRecord_of_ordinal hm]
  cases (s.ms.get m).health <;> decide

/-! ### What the frame depends on -/

/-- The frame reads POWER, MODE and the active record alone (R140). -/
theorem bits_congr (sw : List (BitVec 4)) {s t : State} (hp : t.power = s.power) (hm : t.mode = s.mode)
    (ha : t.activeRecord = s.activeRecord) : t.bits sw = s.bits sw := by
  simp only [State.bits, State.p0, State.p1, hp, hm, ha]

/-- Settles O48: none of the writes is to what `bits_congr` names. -/
theorem frameIgnoresInactiveRecords : Obligations.FrameIgnoresInactiveRecords := by
  intro sw s m n r b e i c l hm other
  refine bits_congr sw rfl rfl ?_
  rw [activeRecord_of_ordinal hm]
  refine (activeRecord_of_ordinal ?_).trans (ModeFile.get_set_other _ _ other.symm)
  exact hm

/-- A temperature in 16..31 is determined by its field (R148). -/
theorem temp_of_tempField {x y : BitVec 8} (hx : 16 ≤ x.toNat) (hx' : x.toNat ≤ 31) (hy : 16 ≤ y.toNat)
    (hy' : y.toNat ≤ 31) (h : tempField x = tempField y) : x = y := by
  have fieldX := toNat_tempField x
  have fieldY := toNat_tempField y
  rw [h] at fieldX
  exact BitVec.eq_of_toNat_eq (by omega)

/-- Settles O49: reversal loses no bit, and each setting is a field of its word. -/
theorem frameDeterminesTheSettingsItCarries : Obligations.FrameDeterminesTheSettingsItCarries := by
  intro sw s t m n hm hn hs hs' ht ht' frames
  have p0 : word0 sw s.power s.mode s.activeRecord = word0 sw t.power t.mode t.activeRecord :=
    rev32_involutive.injective (congrArg Frame.b0 frames)
  have p1 : word1 s.mode s.activeRecord = word1 t.mode t.activeRecord :=
    rev32_involutive.injective (congrArg Frame.b1 frames)
  rw [activeRecord_of_ordinal hm, activeRecord_of_ordinal hn] at p0 p1
  obtain ⟨power, turbo, display, health, xfan⟩ := bitFields_word0 sw s.power s.mode (s.ms.get m)
  rw [p0] at power turbo display health xfan
  obtain ⟨power', turbo', display', health', xfan'⟩ := bitFields_word0 sw t.power t.mode (t.ms.get n)
  have mode : s.mode = t.mode := by rw [← mode_word0 sw s.power s.mode (s.ms.get m), p0, mode_word0]
  have temp : tempField (s.ms.get m).temp = tempField (t.ms.get n).temp := by
    rw [← tempField_word0 sw s.power s.mode, p0, tempField_word0]
  have samePower : s.power = t.power := power.symm.trans power'
  refine ⟨modeOrdinal_injective.mp (hm ▸ hn ▸ mode), samePower, ?_, ?_, temp_of_tempField hs hs' ht ht' temp,
    turbo.symm.trans turbo', display.symm.trans display', xfan.symm.trans xfan', ?_, fun on => ?_⟩
  · rw [← fan_word0 sw s.power s.mode, p0, fan_word0]
  · rw [← louver_word1 s.mode, p1, louver_word1]
  · rw [← dispmode_word1 s.mode, p1, dispmode_word1]
  · simpa [on, ← samePower] using health.symm.trans health'

end Sys2Proof.Machine
end

section
/-! SUPPORT. Proofs for 43_bit_reversal.md: the mask-and-shift method computes `rev32` (R171), and evaluates the
frame after reset (10_state.md section 5). -/

namespace Sys2Proof.Machine

/-- Where the exchange of neighbouring groups of `n` bits takes bit `i` from. -/
def swapSource (n i : Nat) : Nat := if i / n % 2 = 0 then i + n else i - n

/-- A step of the method exchanges neighbouring groups, if its mask selects the lower group of each pair (R171). -/
theorem getLsbD_swapGroups {n : Nat} {mask : Word} (hn : 0 < n)
    (hmask : ∀ i < 32, mask.getLsbD i = decide (i / n % 2 = 0)) (x : Word) {i : Nat} (hi : i < 32) :
    (swapGroups n mask x).getLsbD i = x.getLsbD (swapSource n i) := by
  unfold swapGroups swapSource
  rw [BitVec.getLsbD_or, BitVec.getLsbD_and, BitVec.getLsbD_ushiftRight, BitVec.getLsbD_shiftLeft, BitVec.getLsbD_and,
    hmask i hi, hmask (i - n) (by omega), Nat.add_comm n i]
  obtain first | later := Nat.lt_or_ge i n
  · simp [Nat.div_eq_of_lt first, first]
  · have group : i / n = (i - n) / n + 1 := Nat.div_eq_sub_div hn later
    split_ifs with lower
    · have upper : (i - n) / n % 2 ≠ 0 := by omega
      simp [lower, upper]
    · have upper : (i - n) / n % 2 = 0 := by omega
      simp [lower, upper, hi, Nat.not_lt.mpr later]

/-- The last step exchanges the halves of the word, and needs no mask (R171). -/
theorem getLsbD_swapHalves (x : Word) {i : Nat} (hi : i < 32) :
    ((x >>> 16) ||| (x <<< 16)).getLsbD i = x.getLsbD (swapSource 16 i) := by
  rw [BitVec.getLsbD_or, BitVec.getLsbD_ushiftRight, BitVec.getLsbD_shiftLeft, swapSource]
  obtain first | later := Nat.lt_or_ge i 16
  · simp [show i / 16 % 2 = 0 by omega, first, Nat.add_comm]
  · simp [show i / 16 % 2 = 1 by omega, Nat.not_lt.mpr later, hi, BitVec.getLsbD_of_ge x (16 + i) (by omega)]

/-- Settles O51: bit `i` comes through the five exchanges from bit `31 - i`. -/
theorem maskAndShiftComputesRev : Obligations.MaskAndShiftComputesRev := by
  intro x
  have inside {n : Nat} (hn : n ∈ [2, 4, 8, 16]) : ∀ i < 32, swapSource n i < 32 := by
    revert n
    decide
  have path : ∀ i < 32, swapSource 1 (swapSource 2 (swapSource 4 (swapSource 8 (swapSource 16 i)))) = 31 - i := by
    decide
  refine BitVec.eq_of_getLsbD_eq fun i hi => ?_
  have h16 := inside (n := 16) (by decide) i hi
  have h8 := inside (n := 8) (by decide) _ h16
  have h4 := inside (n := 4) (by decide) _ h8
  have h2 := inside (n := 2) (by decide) _ h4
  rw [getLsbD_rev32 x hi, ← path i hi, rev32BySwaps, getLsbD_swapHalves _ hi,
    getLsbD_swapGroups (by decide) (by decide) _ h16, getLsbD_swapGroups (by decide) (by decide) _ h8,
    getLsbD_swapGroups (by decide) (by decide) _ h4, getLsbD_swapGroups (by decide) (by decide) _ h2]

/-! ### The frame after reset -/

/-- The frame depends on SWING_SET by the swing flag alone (R147). -/
theorem bits_congr_swing {sw sw' : List (BitVec 4)} {s : State}
    (h : swing sw s.activeRecord.louver = swing sw' s.activeRecord.louver) : s.bits sw = s.bits sw' := by
  simp only [State.bits, State.p0, word0, word0Fields, h]

/-- The frame by the mask-and-shift method, which evaluates (R171). -/
theorem bits_eq_bySwaps (s : State) (sw : List (BitVec 4)) :
    s.bits sw = ⟨rev32BySwaps (s.p0 sw), rev32BySwaps s.p1⟩ := by
  rw [maskAndShiftComputesRev, maskAndShiftComputesRev, State.bits]

/-- Settles O11: the registers are the reset values, and the frame, which has the swing flag off, is evaluated. -/
theorem stateRightAfterReset : Obligations.StateRightAfterReset := by
  refine ⟨ModeFile.get_defaultFile, rfl, rfl, rfl, rfl, rfl, rfl, rfl, rfl, rfl, rfl, fun sw h => ?_⟩
  have noSwing : swing sw State.reset.activeRecord.louver = swing [] State.reset.activeRecord.louver :=
    decide_eq_false h
  rw [bits_congr_swing noSwing, bits_eq_bySwaps]
  decide

end Sys2Proof.Machine
end

section
/-! SUPPORT. Proofs for 44_timing_expander.md: the item by index, the alphabet, decoding and duration of the sequence
(R195), and its delivery (R191, R192). -/

namespace Sys2Proof.Machine

/-! ### The item by index -/

/-- The item by index is the entry of the sequence (R187). -/
theorem itemAt_eq_getElem? (b : Frame) (i : Nat) : itemAt b i = (timings b)[i]? := by
  obtain ⟨k, rfl | rfl⟩ := i.even_or_odd'
  · rw [timings, (getElem?_flatMap_pairItems _ k).1, getElem?_symbols, itemAt, Nat.mul_div_cancel_left k two_pos]
    simp
  · rw [timings, (getElem?_flatMap_pairItems _ k).2, getElem?_symbols, itemAt, show (2 * k + 1) / 2 = k by omega]
    simp [show (2 * k + 1) % 2 = 1 by omega]

/-- Settles O53: both read the mark or the space of the same pair. -/
theorem itemByIndexIsTheSequence : Obligations.ItemByIndexIsTheSequence := itemAt_eq_getElem?

/-! ### The alphabet and the fixed items -/

/-- The values of the pairs 29 to 32 are those of the last four bits of word 0 (R187). -/
theorem items_of_last_bits (b : Frame) : (List.range 8).map (fun j => itemAt b (58 + j)) =
    [3, 2, 1, 0].flatMap fun j => (pairItems (bitSymbol (b.b0.getLsbD j))).map some := rfl

/-- Settles O54: each pair of a category has its values, the separator is in every frame, and the last four bits of
word 0 are the reversed flags. -/
theorem fixedItemsAndAlphabet : Obligations.FixedItemsAndAlphabet := by
  refine ⟨fun b i v h => ?_, fun b => ⟨rfl, rfl, rfl, rfl, rfl⟩, fun s sw => ?_⟩
  · obtain ⟨c, -, rfl⟩ := Option.map_eq_some_iff.mp h
    split_ifs <;> cases c <;> decide
  · obtain ⟨flag28, flag29, flag30, flag31⟩ := flags_word0 sw s.power s.mode s.activeRecord
    have bit3 := (getLsbD_b0 s sw (i := 3) rfl).trans flag28
    have bit2 := (getLsbD_b0 s sw (i := 2) rfl).trans flag29
    have bit1 := (getLsbD_b0 s sw (i := 1) rfl).trans flag30
    have bit0 := (getLsbD_b0 s sw (i := 0) rfl).trans flag31
    simp only [items_of_last_bits, List.flatMap_cons, bit3, bit2, bit1, bit0]
    cases s.power <;> rfl

/-! ### Decoding -/

/-- The space of the pair of a bit of word 0 (R185, R187). -/
theorem itemAt_space_word0 (b : Frame) {j : Nat} (hj : j < 32) :
    itemAt b (2 * (32 - j) + 1) = some (timingTable (bitSymbol (b.b0.getLsbD j))).space := by
  simp (disch := omega) only [itemAt, show (2 * (32 - j) + 1) / 2 = 32 - j by omega, symbolAt, if_neg, if_pos,
    Nat.sub_sub_self, Option.map_some]

/-- The space of the pair of a bit of word 1 (R185, R187). -/
theorem itemAt_space_word1 (b : Frame) {j : Nat} (hj : j < 32) :
    itemAt b (2 * (68 - j) + 1) = some (timingTable (bitSymbol (b.b1.getLsbD j))).space := by
  simp (disch := omega) only [itemAt, show (2 * (68 - j) + 1) / 2 = 68 - j by omega, symbolAt, if_neg, if_pos,
    Nat.sub_sub_self, Option.map_some]

/-- A data bit is read off its space (R183, R195 d). -/
theorem bitSymbol_space_injective {x y : Bool}
    (h : (timingTable (bitSymbol x)).space = (timingTable (bitSymbol y)).space) : x = y := by
  revert x y
  decide

/-- Settles O55: each bit of both words is read off the space of its pair. -/
theorem timingsDetermineTheFrame : Obligations.TimingsDetermineTheFrame := by
  rintro ⟨a0, a1⟩ ⟨b0, b1⟩ h
  have items (i : Nat) : itemAt ⟨a0, a1⟩ i = itemAt ⟨b0, b1⟩ i := by rw [itemAt_eq_getElem?, h, ← itemAt_eq_getElem?]
  have word0 : a0 = b0 := BitVec.eq_of_getLsbD_eq fun j hj => bitSymbol_space_injective <| Option.some.inj <|
    (itemAt_space_word0 ⟨a0, a1⟩ hj).symm.trans ((items _).trans (itemAt_space_word0 ⟨b0, b1⟩ hj))
  have word1 : a1 = b1 := BitVec.eq_of_getLsbD_eq fun j hj => bitSymbol_space_injective <| Option.some.inj <|
    (itemAt_space_word1 ⟨a0, a1⟩ hj).symm.trans ((items _).trans (itemAt_space_word1 ⟨b0, b1⟩ hj))
  rw [word0, word1]

/-! ### The total duration -/

/-- The duration of a pair in ticks (R181). -/
def pairTicks (c : Category) : Nat := (timingTable c).mark.toNat + (timingTable c).space.toNat

/-- The sum of the values is the sum over the pairs. -/
theorem sum_flatMap_pairItems (l : List Category) :
    ((l.flatMap pairItems).map BitVec.toNat).sum = (l.map pairTicks).sum := by
  induction l with
  | nil => rfl
  | cons c l ih => simp [pairItems, pairTicks, ih, Nat.add_assoc]

/-- A data pair takes 1159 ticks, and 1079 more for a 1 (R183). -/
theorem pairTicks_bitSymbol (x : Bool) : pairTicks (bitSymbol x) = 1159 + 1079 * x.toNat := by
  cases x <;> rfl

/-- The duration of data pairs, by the number of 1 bits among them. -/
theorem sum_pairTicks_bits (w : Word) (l : List Nat) :
    (l.map fun i => pairTicks (bitSymbol (w.getLsbD i))).sum =
      1159 * l.length + 1079 * l.countP fun i => w.getLsbD i := by
  induction l with
  | nil => rfl
  | cons i l ih =>
    rw [List.map_cons, List.sum_cons, ih, pairTicks_bitSymbol, List.length_cons, List.countP_cons]
    cases w.getLsbD i <;> simp <;> omega

/-- The order of the bits does not change the duration of a word's 32 pairs (R185, R195). -/
theorem sum_pairTicks_wordSymbols (w : Word) :
    ((wordSymbols w).map pairTicks).sum = 37088 + 1079 * onesCount w := by
  have reversed : (List.range 32).map (31 - ·) = (List.range 32).reverse := by decide
  have symbols : wordSymbols w = ((List.range 32).map (31 - ·)).map fun i => bitSymbol (w.getLsbD i) := by
    rw [List.map_map]
    rfl
  rw [symbols, reversed, List.map_map, List.map_reverse, List.sum_reverse]
  exact sum_pairTicks_bits w (List.range 32)

/-- Settles O56: the six fixed pairs take 39533 ticks, and each word its 32 data pairs. -/
theorem totalDurationByOnesCount : Obligations.TotalDurationByOnesCount := by
  intro b
  have fixed : pairTicks .h = 13370 ∧ pairTicks .z = 1159 ∧ pairTicks .o = 2238 ∧ pairTicks .g = 20448 := by decide
  obtain ⟨h, z, o, g⟩ := fixed
  rw [timings, sum_flatMap_pairItems, symbols]
  simp only [List.map_append, List.sum_append, sum_pairTicks_wordSymbols, List.map_cons, List.map_nil, List.sum_cons,
    List.sum_nil, h, z, o, g]
  omega

/-! ### The delivery of a sequence -/

/-- An item is taken while BUSY by a ready consumer, without a reset (R191). -/
theorem transferredItem_of_ready {p : PortIn} {s : State} (sw : List (BitVec 4)) (hr : p.rst = false)
    (hb : s.busy = true) (ht : p.timReady = true) : transferredItem p s sw = some (s.offeredItem sw) := by
  simp [transferredItem, itemTransferred, timValid, timData, hr, hb, ht]

/-- No item is taken by a consumer that is not ready (R191). -/
theorem transferredItem_of_not_ready {p : PortIn} (s : State) (sw : List (BitVec 4)) (ht : p.timReady = false) :
    transferredItem p s sw = none := by
  simp [transferredItem, itemTransferred_of_not_ready s ht]

/-- No item is taken from an idle stream (R189). -/
theorem transferredItem_of_idle (p : PortIn) {s : State} (sw : List (BitVec 4)) (hb : s.busy = false) :
    transferredItem p s sw = none := by
  simp [transferredItem, itemTransferred, timValid, hb]

/-- Settles O58: the item is the offered one, and a transfer has a lemma for each range of IDX. -/
theorem transferAdvancesAndTheLastOneEnds : Obligations.TransferAdvancesAndTheLastOneEnds := by
  intro s p rest sw hin hr hb ht hi
  refine ⟨?_, step_of_transfer_lt hin hr hb ht, fun last =>
    ⟨_, step_of_transfer_eq hin hr hb ht last, rfl, rfl, fun _ => rfl⟩⟩
  rw [transferredItem_of_ready sw hr hb ht, itemAt_eq_offeredItem s sw hi]

section
variable {s t : State} (h : step s = .next t) (n : Nat)
include h

/-- A run after its first step. -/
theorem runSteps_succ_of_next : runSteps (n + 1) s = runSteps n t := by
  rw [runSteps, h]

/-- The deliveries after the first step. -/
theorem delivered_succ_of_next (sw : List (BitVec 4)) :
    delivered sw (n + 1) s = (transferredItem s.currentInput s sw).toList ++ delivered sw n t := by
  rw [delivered, h]

end

/-- The rest of a sequence from the offered item on. -/
theorem drop_timings (s : State) (sw : List (BitVec 4)) (hi : s.idx.toNat ≤ 139) :
    (timings (s.bits sw)).drop s.idx.toNat = s.offeredItem sw :: (timings (s.bits sw)).drop (s.idx.toNat + 1) := by
  have inside : s.idx.toNat < (timings (s.bits sw)).length := by rw [length_timings]; omega
  have here := itemAt_eq_offeredItem s sw hi
  rw [itemAt_eq_getElem?, List.getElem?_eq_getElem inside] at here
  rw [List.drop_eq_getElem_cons inside, Option.some.inj here]

/-- Once started, the stream delivers the rest of the sequence to any consumer that is ready often enough, and ends with
it, whatever the command port shows (R191 to R193). -/
theorem rest_of_sequence (sw : List (BitVec 4)) {front rest : List PortIn} {last : PortIn} {s : State}
    (hb : s.busy = true) (hin : s.inputs = front ++ last :: rest) (hfront : ∀ p ∈ front, p.rst = false)
    (hr : last.rst = false) (ht : last.timReady = true)
    (hcount : s.idx.toNat + front.countP (fun p => p.timReady) = 139) :
    runSteps (front.length + 1) s = .next { s with busy := false, idx := 0, inputs := rest } ∧
      delivered sw (front.length + 1) s = (timings (s.bits sw)).drop s.idx.toNat := by
  induction front generalizing s with
  | nil =>
    have hi : s.idx.toNat = 139 := hcount
    have ends := step_of_transfer_eq hin hr hb ht hi
    refine ⟨runSteps_succ_of_next ends 0, ?_⟩
    rw [List.length_nil, delivered_succ_of_next ends, currentInput_cons hin, transferredItem_of_ready sw hr hb ht,
      drop_timings s sw hi.le, hi, List.drop_of_length_le (length_timings _).le]
    rfl
  | cons p front ih =>
    obtain ⟨hrp, hfront⟩ := List.forall_mem_cons.mp hfront
    have hin : s.inputs = p :: (front ++ last :: rest) := hin
    cases htp : p.timReady with
    | false =>
      have stays := step_of_stall hb hrp htp hin
      rw [List.countP_cons_of_neg (by simp [htp])] at hcount
      obtain ⟨runs, delivers⟩ := ih (s := s.withInputs (front ++ last :: rest)) hb rfl hfront hcount
      refine ⟨(runSteps_succ_of_next stays _).trans runs, ?_⟩
      rw [List.length_cons, delivered_succ_of_next stays, currentInput_cons hin,
        transferredItem_of_not_ready s sw htp, delivers]
      rfl
    | true =>
      rw [List.countP_cons_of_pos (by simp [htp])] at hcount
      have advances := step_of_transfer_lt hin hrp hb htp (by omega)
      have next : (s.idx + 1).toNat = s.idx.toNat + 1 := by bv_omega
      obtain ⟨runs, delivers⟩ := ih (s := { s with idx := s.idx + 1, inputs := front ++ last :: rest }) hb rfl hfront
        (by rw [next]; omega)
      refine ⟨(runSteps_succ_of_next advances _).trans runs, ?_⟩
      rw [List.length_cons, delivered_succ_of_next advances, currentInput_cons hin,
        transferredItem_of_ready sw hrp hb htp, delivers, drop_timings s sw (by omega), next]
      rfl

/-- Settles O60: EMIT starts the sequence at IDX 0 without taking an item, and the rest of it is the whole. -/
theorem emitDeliversTheWholeSequence : Obligations.EmitDeliversTheWholeSequence := by
  intro sw s e last front rest hb hin hre hve hcmd hfront hr ht hcount
  have starts : step s = .next (startStream (s.withInputs (front ++ last :: rest))) := by
    rw [step_of_command hin hre hve hb, hcmd, show decodeWord 0xD0000000#32 = .emit 0 by decide, exec_emit_zero]
  obtain ⟨runs, delivers⟩ := rest_of_sequence sw (s := startStream (s.withInputs (front ++ last :: rest))) rfl rfl hfront
    hr ht ((Nat.zero_add _).trans hcount)
  refine ⟨(runSteps_succ_of_next starts _).trans runs, ?_⟩
  rw [delivered_succ_of_next starts, transferredItem_of_idle _ sw hb, delivers]
  rfl

end Sys2Proof.Machine
end
